-- ==== Sys2Proof/Word.lean ====
section
/-! DEFINITION. The word types of CHIP8-CORE (spec/00_scope.md R10): every value is an unsigned integer of a stated
width. Bit 0 is the least significant bit (R9). -/

namespace Sys2Proof

/-- An 8-bit value: a general register, a timer, a byte of memory (R10). -/
abbrev Byte := BitVec 8

/-- A 16-bit value: I, PC, a stack entry, an instruction word (R10). -/
abbrev Word := BitVec 16

/-- A 4-bit field: a register number `x` or `y`, a key number, a sprite height `n` (R10, R91). -/
abbrev Nibble := BitVec 4

/-- A 12-bit address immediate `nnn` (R10, R91). -/
abbrev Imm12 := BitVec 12

/-- The number of VF, the flags register V[15] (spec/10_state.md R24). -/
abbrev regVF : Nibble := 0xF#4

end Sys2Proof
end

