-- ==== Sys2Proof/Config.lean ====
section
/-! DEFINITION. The parameters of spec/00_scope.md R7 and the free values of the model.
SHIFT_SRC (the shifts read Vx) and LDST_INCREMENTS_I (false) have the value the spec gives them built into the meanings
(log 15); MEM_INIT is free (log 1). -/

namespace Sys2Proof

/-- MEM_SIZE: 4096 bytes (R7). -/
abbrev Config.memSize : Nat := 4096

/-- LOAD_ADDR: where the program is loaded and PC at reset (R7). -/
def Config.loadAddr : Word := 0x200#16

/-- DISP_W: columns of the display (R7). -/
abbrev Config.dispW : Nat := 64

/-- DISP_H: rows of the display (R7). -/
abbrev Config.dispH : Nat := 32

/-- STACK_DEPTH: entries of the call stack (R7, decision D5). -/
abbrev Config.stackDepth : Nat := 16

/-- FONT_BASE: address of the glyph of digit 0 (R7, decision D10). -/
def Config.fontBase : Nat := 0x000

/-- FONT_STRIDE: bytes of one glyph (R7). -/
def Config.fontStride : Nat := 5

/-- FREE VALUE (log 4): the key vector the host presents in the step that samples as number `n`, where the state has
fixed none. The host may present any value, unrelated to the step before (spec/10_state.md R36). -/
opaque Config.freeKeys : Nat → Word

/-- FREE VALUE (log 4): the random byte presented in the step that samples as number `n`, where the state has fixed
none. It is under no law (spec/42_arith_logic.md R172). -/
opaque Config.freeRnd : Nat → Byte

/-- FREE VALUE (log 1): MEM_INIT, the byte at each address at launch where the state has listed none. Nothing is
assumed of it (spec/70_reset_and_hazards.md R296, decision D16). -/
opaque Config.memInit : Nat → Byte

/-- The 80 conventional font bytes the host loads at FONT_BASE, digit 0 first (spec/43_memory_index.md R193). -/
def Config.fontBytes : List Byte :=
  [0xF0, 0x90, 0x90, 0x90, 0xF0,  0x20, 0x60, 0x20, 0x20, 0x70,
   0xF0, 0x10, 0xF0, 0x80, 0xF0,  0xF0, 0x10, 0xF0, 0x10, 0xF0,
   0x90, 0x90, 0xF0, 0x10, 0x10,  0xF0, 0x80, 0xF0, 0x10, 0xF0,
   0xF0, 0x80, 0xF0, 0x90, 0xF0,  0xF0, 0x10, 0x20, 0x40, 0x40]
  ++
  [0xF0, 0x90, 0xF0, 0x90, 0xF0,  0xF0, 0x90, 0xF0, 0x10, 0xF0,
   0xF0, 0x90, 0xF0, 0x90, 0x90,  0xE0, 0x90, 0xE0, 0x90, 0xE0,
   0xF0, 0x80, 0x80, 0x80, 0xF0,  0xE0, 0x90, 0x90, 0x90, 0xE0,
   0xF0, 0x80, 0xF0, 0x80, 0xF0,  0xF0, 0x80, 0xF0, 0x80, 0x80]

end Sys2Proof
end

