-- ==== Sys2Proof/Syntax.lean ====
section
/-! DEFINITION. The instructions: one constructor per row of spec/opcode_table.json (spec/30_encoding.md R95), named
after the row's mnemonic, with the row's fields (R91) as arguments. -/

namespace Sys2Proof

/-- The 35 rows of R95. `x` and `y` are register numbers, `n`, `nn`, `nnn` immediates of 4, 8, 12 bits. -/
inductive Instr where
  /-- `00E0` CLS -/
  | cls
  /-- `00EE` RET -/
  | ret
  /-- `1nnn` JP nnn -/
  | jpNnn (nnn : Imm12)
  /-- `2nnn` CALL nnn -/
  | callNnn (nnn : Imm12)
  /-- `3xnn` SE Vx,nn -/
  | seVxNn (x : Nibble) (nn : Byte)
  /-- `4xnn` SNE Vx,nn -/
  | sneVxNn (x : Nibble) (nn : Byte)
  /-- `5xy0` SE Vx,Vy -/
  | seVxVy (x y : Nibble)
  /-- `6xnn` LD Vx,nn -/
  | ldVxNn (x : Nibble) (nn : Byte)
  /-- `7xnn` ADD Vx,nn -/
  | addVxNn (x : Nibble) (nn : Byte)
  /-- `8xy0` LD Vx,Vy -/
  | ldVxVy (x y : Nibble)
  /-- `8xy1` OR Vx,Vy -/
  | orVxVy (x y : Nibble)
  /-- `8xy2` AND Vx,Vy -/
  | andVxVy (x y : Nibble)
  /-- `8xy3` XOR Vx,Vy -/
  | xorVxVy (x y : Nibble)
  /-- `8xy4` ADD Vx,Vy -/
  | addVxVy (x y : Nibble)
  /-- `8xy5` SUB Vx,Vy -/
  | subVxVy (x y : Nibble)
  /-- `8xy6` SHR Vx; `y` is carried and ignored (R96) -/
  | shrVx (x y : Nibble)
  /-- `8xy7` SUBN Vx,Vy -/
  | subnVxVy (x y : Nibble)
  /-- `8xyE` SHL Vx; `y` is carried and ignored (R96) -/
  | shlVx (x y : Nibble)
  /-- `9xy0` SNE Vx,Vy -/
  | sneVxVy (x y : Nibble)
  /-- `Annn` LD I,nnn -/
  | ldINnn (nnn : Imm12)
  /-- `Bnnn` JP V0,nnn -/
  | jpV0Nnn (nnn : Imm12)
  /-- `Cxnn` RND Vx,nn -/
  | rndVxNn (x : Nibble) (nn : Byte)
  /-- `Dxyn` DRW Vx,Vy,n -/
  | drwVxVyN (x y n : Nibble)
  /-- `Ex9E` SKP Vx -/
  | skpVx (x : Nibble)
  /-- `ExA1` SKNP Vx -/
  | sknpVx (x : Nibble)
  /-- `Fx07` LD Vx,DT -/
  | ldVxDt (x : Nibble)
  /-- `Fx0A` LD Vx,K -/
  | ldVxK (x : Nibble)
  /-- `Fx15` LD DT,Vx -/
  | ldDtVx (x : Nibble)
  /-- `Fx18` LD ST,Vx -/
  | ldStVx (x : Nibble)
  /-- `Fx1E` ADD I,Vx -/
  | addIVx (x : Nibble)
  /-- `Fx29` LD F,Vx -/
  | ldFVx (x : Nibble)
  /-- `Fx33` LD B,Vx -/
  | ldBVx (x : Nibble)
  /-- `Fx55` LD [I],Vx -/
  | ldMemVx (x : Nibble)
  /-- `Fx65` LD Vx,[I] -/
  | ldVxMem (x : Nibble)
  /-- `0nnn` SYS nnn: the 4094 words of family 0 other than `00E0` and `00EE`; illegal in this hardware (R140) -/
  | sysNnn (nnn : Imm12)
  deriving DecidableEq, Repr

end Sys2Proof
end

