-- ==== Sys2Proof/Machine/State.lean ====
section
/-! DEFINITION. The state of CHIP8-CORE as plain data (spec/10_state.md), its value after reset (R41), and the reasons a
step can stop. -/

namespace Sys2Proof.Machine

/-- The three fatal conditions the CORE raises (spec/60_exceptions.md R254); the spec gives them no numbers. -/
inductive Cause where
  /-- The fetched word is no legal instruction (R251). -/
  | unknownOpcode
  /-- RET with an empty stack (R252). -/
  | stackUnderflow
  /-- CALL with a full stack (R253). -/
  | stackOverflow
  deriving DecidableEq, Repr

/-- The `result` output of a step (spec/40_step_cycle.md R130). -/
inductive StepResult where
  | ok
  | needsInput
  | fatal (cause : Cause) (word : Word)
  deriving DecidableEq, Repr

/-- What the host presents to one step: the key vector and a random byte (spec/00_scope.md R8). -/
structure Inputs where
  keys : Word
  rnd : Byte
  deriving DecidableEq, Repr

/-- Memory: the bytes that have been loaded or stored, by strictly rising address; every other byte is free (log 1). -/
abbrev Memory := List Host.Cell

/-- The display buffer: 32 rows; bit `x` of row `y` is pixel (x, y) (R34; log 11). -/
abbrev Display := Vector (BitVec 64) 32

/-- All the state the spec gives the machine (R20 to R37), the outputs of the last step, and the model's own two fields
`inputs` and `tick` that carry the free inputs (log 4). -/
structure State where
  /-- V0 to VF (R20) -/
  v : Vector Byte 16
  /-- PC (R26) -/
  pc : Word
  /-- I (R29) -/
  i : Word
  /-- STACK (R30) -/
  stack : Vector Word 16
  /-- SP, the number of stack entries in use, 0 to 16 (R30; log 12) -/
  sp : Fin 17
  /-- DT (R32) -/
  dt : Byte
  /-- ST (R32) -/
  st : Byte
  /-- MEM (R33) -/
  mem : Memory
  /-- FB (R34) -/
  fb : Display
  /-- DIRTY (R35) -/
  dirty : Bool
  /-- HALT (R37) -/
  halt : Bool
  /-- HCAUSE; has meaning only while HALT = 1 (R37) -/
  hcause : Cause
  /-- HINFO; has meaning only while HALT = 1 (R37) -/
  hinfo : Word
  /-- the `tone` output of the last step (spec/40_step_cycle.md R128) -/
  tone : Bool
  /-- the `result` output of the last step; none until a step has run (spec/70_reset_and_hazards.md R291) -/
  result : Option StepResult
  /-- the model's own: the samples already fixed for coming steps (log 4) -/
  inputs : List Inputs
  /-- the model's own: how many steps have sampled their inputs (log 4) -/
  tick : Nat
  deriving DecidableEq, Repr

/-- Reasons a step could fault: none. Every state has a successor under step, and the spec's fatal conditions are next
states with HALT set (spec/60_exceptions.md R259; log 6), so no meaning raises a fault. Safe: there is nothing to raise. -/
inductive Fault where
  deriving DecidableEq, Repr

/-- Reasons a step could be refused. -/
inductive Refusal where
  /-- An instruction that has no meaning yet; raised by a refused arm of `exec` only, and no arm is refused. Safe: the
  model stops where the hardware goes on. -/
  | notModelled (mnemonic : String)
  deriving DecidableEq, Repr

/-- The machine right after reset (R41). Memory lists nothing (log 1); STACK, HCAUSE and HINFO, which the spec leaves
unspecified, hold the values named in logs 2 and 3; no input is fixed yet (log 4). -/
def State.reset : State where
  v := Vector.replicate 16 0x00#8
  pc := Config.loadAddr
  i := 0x0000#16
  stack := Vector.replicate 16 0x0000#16
  sp := 0
  dt := 0x00#8
  st := 0x00#8
  mem := []
  fb := Vector.replicate 32 0#64
  dirty := false
  halt := false
  hcause := .unknownOpcode
  hinfo := 0x0000#16
  tone := false
  result := none
  inputs := []
  tick := 0

end Sys2Proof.Machine
end

