-- ==== Sys2Proof/Machine/Flags.lean ====
section
/-! DEFINITION. The flag values of the six flag-writing instructions (spec/10_state.md R24): always 0x00 or 0x01, computed
from the operand values before any write (spec/42_arith_logic.md R173). The collision flag is `flagOf` of the
rasterizer's result (spec/45_display.md R223). -/

namespace Sys2Proof.Machine

/-- 0x01 where the condition holds, else 0x00 (R24). -/
def flagOf (c : Bool) : Byte := if c then 0x01#8 else 0x00#8

/-- Carry out: the unbounded sum exceeds 255 (R166). -/
def carryFlag (a b : Byte) : Byte := flagOf (decide (a.toNat + b.toNat > 255))

/-- The minuend is strictly greater than the subtrahend (R167, R169; spec/90_conflicts.md C4). -/
def greaterFlag (minuend subtrahend : Byte) : Byte := flagOf (decide (minuend.toNat > subtrahend.toNat))

/-- The bit SHR shifts out: bit 0 of the value before the shift (R168). -/
def shrFlag (a : Byte) : Byte := flagOf (a.getLsbD 0)

/-- The bit SHL shifts out: bit 7 of the value before the shift (R170). -/
def shlFlag (a : Byte) : Byte := flagOf (a.getLsbD 7)

end Sys2Proof.Machine
end

