-- ==== Sys2Proof/WellFormed.lean ====
section
/-! DEFINITION. Which terms of `Instr` are an instruction word of spec/30_encoding.md R95. Every field has its exact
width, so the one check is row 1's exception: SYS nnn is not `00E0` and not `00EE`. -/

namespace Sys2Proof

/-- Row 1 of R95: `nnn` of a SYS word is neither 0x0E0 (CLS) nor 0x0EE (RET). -/
def sysFieldOk (nnn : Imm12) : Bool := nnn != 0x0E0#12 && nnn != 0x0EE#12

/-- The instruction is the reading of some instruction word (R95). -/
def Instr.wellFormed : Instr → Bool
  | .sysNnn nnn => sysFieldOk nnn
  | .cls => true
  | .ret => true
  | .jpNnn _ => true
  | .callNnn _ => true
  | .seVxNn _ _ => true
  | .sneVxNn _ _ => true
  | .seVxVy _ _ => true
  | .ldVxNn _ _ => true
  | .addVxNn _ _ => true
  | .ldVxVy _ _ => true
  | .orVxVy _ _ => true
  | .andVxVy _ _ => true
  | .xorVxVy _ _ => true
  | .addVxVy _ _ => true
  | .subVxVy _ _ => true
  | .shrVx _ _ => true
  | .subnVxVy _ _ => true
  | .shlVx _ _ => true
  | .sneVxVy _ _ => true
  | .ldINnn _ => true
  | .jpV0Nnn _ => true
  | .rndVxNn _ _ => true
  | .drwVxVyN _ _ _ => true
  | .skpVx _ => true
  | .sknpVx _ => true
  | .ldVxDt _ => true
  | .ldVxK _ => true
  | .ldDtVx _ => true
  | .ldStVx _ => true
  | .addIVx _ => true
  | .ldFVx _ => true
  | .ldBVx _ => true
  | .ldMemVx _ => true
  | .ldVxMem _ => true

end Sys2Proof
end

