-- ==== Sys2Proof/Decode.lean ====
section
/-! DEFINITION. The decoder of spec/30_encoding.md R94 and, after it, the encoder, both written from the opcode map R95.
A word is two bytes, high byte first (R90). SYS words decode to `Instr.sysNnn`, whose meaning raises the
UnknownOpcode the spec raises for them at decode (log 7). -/

namespace Sys2Proof

/-- Why bytes give no instruction. -/
inductive DecodeError where
  /-- The word matches no row of R95: the spec's UnknownOpcode, carrying the raw word (R101). -/
  | unknownOpcode (word : Word)
  /-- Fewer than the two bytes of an instruction were given; never so in a fetch (spec/40_step_cycle.md R122). -/
  | tooFewBytes (given : Nat)
  deriving DecidableEq, Repr

/-- The family, bits 15:12 (R91). -/
def fieldOp (w : Word) : Nibble := w.extractLsb' 12 4

/-- Field `x`, bits 11:8 (R91). -/
def fieldX (w : Word) : Nibble := w.extractLsb' 8 4

/-- Field `y`, bits 7:4 (R91). -/
def fieldY (w : Word) : Nibble := w.extractLsb' 4 4

/-- Field `n`, bits 3:0 (R91). -/
def fieldN (w : Word) : Nibble := w.extractLsb' 0 4

/-- Field `nn`, bits 7:0 (R91). -/
def fieldNn (w : Word) : Byte := w.extractLsb' 0 8

/-- Field `nnn`, bits 11:0 (R91). -/
def fieldNnn (w : Word) : Imm12 := w.extractLsb' 0 12

/-- Two bytes as one word, the first the more significant (R90, spec/20_memory.md R63). -/
def wordOfBytes (hi lo : Byte) : Word := hi ++ lo

/-- The first byte of a word as it is stored (R63). -/
def highByte (w : Word) : Byte := w.extractLsb' 8 8

/-- The second byte of a word as it is stored (R63). -/
def lowByte (w : Word) : Byte := w.extractLsb' 0 8

/-- Family 0: CLS and RET are whole words, every other word is SYS (R94, R95 rows 1 to 3). -/
def decodeFamily0 (nnn : Imm12) : Instr :=
  if nnn = 0x0E0#12 then .cls
  else if nnn = 0x0EE#12 then .ret
  else .sysNnn nnn

/-- Family 8: `n` selects the row (R94, R95 rows 11 to 19). -/
def decodeFamily8 (w : Word) (x y n : Nibble) : Except DecodeError Instr :=
  match n.toNat with
  | 0x0 => .ok (.ldVxVy x y)
  | 0x1 => .ok (.orVxVy x y)
  | 0x2 => .ok (.andVxVy x y)
  | 0x3 => .ok (.xorVxVy x y)
  | 0x4 => .ok (.addVxVy x y)
  | 0x5 => .ok (.subVxVy x y)
  | 0x6 => .ok (.shrVx x y)
  | 0x7 => .ok (.subnVxVy x y)
  | 0xE => .ok (.shlVx x y)
  | _ => .error (.unknownOpcode w)

/-- Family E: `nn` selects the row (R94, R95 rows 25, 26). -/
def decodeFamilyE (w : Word) (x : Nibble) (nn : Byte) : Except DecodeError Instr :=
  match nn.toNat with
  | 0x9E => .ok (.skpVx x)
  | 0xA1 => .ok (.sknpVx x)
  | _ => .error (.unknownOpcode w)

/-- Family F: `nn` selects the row (R94, R95 rows 27 to 35). -/
def decodeFamilyF (w : Word) (x : Nibble) (nn : Byte) : Except DecodeError Instr :=
  match nn.toNat with
  | 0x07 => .ok (.ldVxDt x)
  | 0x0A => .ok (.ldVxK x)
  | 0x15 => .ok (.ldDtVx x)
  | 0x18 => .ok (.ldStVx x)
  | 0x1E => .ok (.addIVx x)
  | 0x29 => .ok (.ldFVx x)
  | 0x33 => .ok (.ldBVx x)
  | 0x55 => .ok (.ldMemVx x)
  | 0x65 => .ok (.ldVxMem x)
  | _ => .error (.unknownOpcode w)

/-- `Decode(IR)` (R94): by family, then by the function bits of the families that have them. -/
def decodeWord (w : Word) : Except DecodeError Instr :=
  match (fieldOp w).toNat with
  | 0x0 => .ok (decodeFamily0 (fieldNnn w))
  | 0x1 => .ok (.jpNnn (fieldNnn w))
  | 0x2 => .ok (.callNnn (fieldNnn w))
  | 0x3 => .ok (.seVxNn (fieldX w) (fieldNn w))
  | 0x4 => .ok (.sneVxNn (fieldX w) (fieldNn w))
  | 0x5 => if fieldN w = 0x0#4 then .ok (.seVxVy (fieldX w) (fieldY w)) else .error (.unknownOpcode w)
  | 0x6 => .ok (.ldVxNn (fieldX w) (fieldNn w))
  | 0x7 => .ok (.addVxNn (fieldX w) (fieldNn w))
  | 0x8 => decodeFamily8 w (fieldX w) (fieldY w) (fieldN w)
  | 0x9 => if fieldN w = 0x0#4 then .ok (.sneVxVy (fieldX w) (fieldY w)) else .error (.unknownOpcode w)
  | 0xA => .ok (.ldINnn (fieldNnn w))
  | 0xB => .ok (.jpV0Nnn (fieldNnn w))
  | 0xC => .ok (.rndVxNn (fieldX w) (fieldNn w))
  | 0xD => .ok (.drwVxVyN (fieldX w) (fieldY w) (fieldN w))
  | 0xE => decodeFamilyE w (fieldX w) (fieldNn w)
  | 0xF => decodeFamilyF w (fieldX w) (fieldNn w)
  | _ => .error (.unknownOpcode w)

/-- The instruction at the head of a list of bytes, and the bytes after it. -/
def decode : List Byte → Except DecodeError (Instr × List Byte)
  | hi :: lo :: rest =>
    match decodeWord (wordOfBytes hi lo) with
    | .ok i => .ok (i, rest)
    | .error e => .error e
  | [_] => .error (.tooFewBytes 1)
  | [] => .error (.tooFewBytes 0)

/-- Layout `[op][nnn]` (R92). -/
def wordNnn (op : Nibble) (nnn : Imm12) : Word := op ++ nnn

/-- Layout `[op][x][nn]` (R92). -/
def wordXnn (op x : Nibble) (nn : Byte) : Word := op ++ x ++ nn

/-- Layout `[op][x][y][n]` (R92). -/
def wordXyn (op x y n : Nibble) : Word := op ++ x ++ y ++ n

/-- The word of an instruction, from the patterns of R95. -/
def encode : Instr → Word
  | .cls => 0x00E0#16
  | .ret => 0x00EE#16
  | .jpNnn nnn => wordNnn 0x1#4 nnn
  | .callNnn nnn => wordNnn 0x2#4 nnn
  | .seVxNn x nn => wordXnn 0x3#4 x nn
  | .sneVxNn x nn => wordXnn 0x4#4 x nn
  | .seVxVy x y => wordXyn 0x5#4 x y 0x0#4
  | .ldVxNn x nn => wordXnn 0x6#4 x nn
  | .addVxNn x nn => wordXnn 0x7#4 x nn
  | .ldVxVy x y => wordXyn 0x8#4 x y 0x0#4
  | .orVxVy x y => wordXyn 0x8#4 x y 0x1#4
  | .andVxVy x y => wordXyn 0x8#4 x y 0x2#4
  | .xorVxVy x y => wordXyn 0x8#4 x y 0x3#4
  | .addVxVy x y => wordXyn 0x8#4 x y 0x4#4
  | .subVxVy x y => wordXyn 0x8#4 x y 0x5#4
  | .shrVx x y => wordXyn 0x8#4 x y 0x6#4
  | .subnVxVy x y => wordXyn 0x8#4 x y 0x7#4
  | .shlVx x y => wordXyn 0x8#4 x y 0xE#4
  | .sneVxVy x y => wordXyn 0x9#4 x y 0x0#4
  | .ldINnn nnn => wordNnn 0xA#4 nnn
  | .jpV0Nnn nnn => wordNnn 0xB#4 nnn
  | .rndVxNn x nn => wordXnn 0xC#4 x nn
  | .drwVxVyN x y n => wordXyn 0xD#4 x y n
  | .skpVx x => wordXnn 0xE#4 x 0x9E#8
  | .sknpVx x => wordXnn 0xE#4 x 0xA1#8
  | .ldVxDt x => wordXnn 0xF#4 x 0x07#8
  | .ldVxK x => wordXnn 0xF#4 x 0x0A#8
  | .ldDtVx x => wordXnn 0xF#4 x 0x15#8
  | .ldStVx x => wordXnn 0xF#4 x 0x18#8
  | .addIVx x => wordXnn 0xF#4 x 0x1E#8
  | .ldFVx x => wordXnn 0xF#4 x 0x29#8
  | .ldBVx x => wordXnn 0xF#4 x 0x33#8
  | .ldMemVx x => wordXnn 0xF#4 x 0x55#8
  | .ldVxMem x => wordXnn 0xF#4 x 0x65#8
  | .sysNnn nnn => wordNnn 0x0#4 nnn

/-- The two bytes of an instruction as they are stored, high byte first (R90). -/
def encodeBytes (i : Instr) : List Byte := [highByte (encode i), lowByte (encode i)]

/-- The instruction word among `nbits` table bits `w`: every bit above `nbits` is 0, and the first word is the only
one (R90: one length, 16 bits). -/
def tableWord (nbits w : Nat) : Word := BitVec.ofNat 16 (w % 2 ^ nbits)

/-- The decoder applied to a table row's word, laid out as the hardware stores it. -/
def decodeTableWord (nbits w : Nat) : Option Instr :=
  match decode [highByte (tableWord nbits w), lowByte (tableWord nbits w)] with
  | .ok (i, _) => some i
  | .error _ => none

end Sys2Proof
end

