-- ==== Sys2Proof/Machine/Ops.lean ====
section
/-! DEFINITION. The named operations over memory, registers, stack and display (spec/00_scope.md R11), the sampled
inputs, the entry into a fatal condition, reset as its only exit, the phases of a step (spec/40_step_cycle.md), and what
the host does between steps (spec/70_reset_and_hazards.md). -/

namespace Sys2Proof.Machine

/-! ### Memory as data -/

/-- What an address reads as that nothing has loaded or stored to: the free MEM_INIT (spec/70_reset_and_hazards.md
R296; log 1). -/
def unlistedByte (a : Nat) : Byte := Config.memInit a

/-- The byte listed for `a`, none where nothing has loaded or stored to `a`. -/
def Memory.lookup : Memory → Nat → Option Byte
  | [], _ => none
  | (b, v) :: m, a => if b = a then some v else Memory.lookup m a

/-- The byte the memory holds at `a`. -/
def Memory.read (m : Memory) (a : Nat) : Byte := (m.lookup a).getD (unlistedByte a)

/-- The memory with no entry for `a`. -/
def Memory.erase (m : Memory) (a : Nat) : Memory := m.filter (fun c => c.1 != a)

/-- The memory with the entry `(a, v)` put before the first higher address. -/
def Memory.insert : Memory → Nat → Byte → Memory
  | [], a, v => [(a, v)]
  | (b, w) :: m, a, v => if a < b then (a, v) :: (b, w) :: m else (b, w) :: Memory.insert m a v

/-- Store `v` at `a`. -/
def Memory.write (m : Memory) (a : Nat) (v : Byte) : Memory := (m.erase a).insert a v

/-- Every listed address is at least `lo` and the list rises strictly, inside the address space. -/
def Memory.wfFrom : Nat → Memory → Bool
  | _, [] => true
  | lo, (a, _) :: m => decide (lo ≤ a) && decide (a < Config.memSize) && Memory.wfFrom (a + 1) m

/-- The canonical form of memory: one entry for each byte that has a value of its own, by address. No entry is what an
unlisted address has, which is no value but the free one (log 1). -/
def Memory.wf (m : Memory) : Bool := m.wfFrom 0

/-! ### Memory as the CORE reaches it: every address modulo 4096 (spec/20_memory.md R62) -/

/-- `MemRead(addr, 1)` (R11, R62). -/
def State.readByte (s : State) (addr : Nat) : Byte := s.mem.read (addr % Config.memSize)

/-- `MemWrite(addr, 1, v)` (R11, R62). -/
def State.writeByte (s : State) (addr : Nat) (v : Byte) : State :=
  { s with mem := s.mem.write (addr % Config.memSize) v }

/-- Store the bytes at `addr`, `addr + 1`, ..., in ascending order (spec/20_memory.md R68). -/
def State.writeBytes (s : State) (addr : Nat) : List Byte → State
  | [] => s
  | v :: vs => (s.writeByte addr v).writeBytes (addr + 1) vs

/-- `MemRead(PC, 2)`: the instruction word, high byte at the lower address (R63, R66, spec/40_step_cycle.md R122). -/
def State.fetchWord (s : State) : Word := wordOfBytes (s.readByte s.pc.toNat) (s.readByte (s.pc.toNat + 1))

/-! ### Registers -/

/-- `V[r]` (spec/10_state.md R20). -/
def State.readV (s : State) (r : Nibble) : Byte := s.v[r.toNat]'r.isLt

/-- `V[r] <- v` (spec/10_state.md R20). -/
def State.writeV (s : State) (r : Nibble) (v : Byte) : State := { s with v := s.v.set r.toNat v r.isLt }

/-- `VF <- f`, the flag write, always the instruction's last register write (spec/10_state.md R24). -/
def State.writeFlag (s : State) (f : Byte) : State := s.writeV regVF f

/-- `I <- a`. -/
def State.setI (s : State) (a : Word) : State := { s with i := a }

/-- `pc <- target`. -/
def State.setPc (s : State) (target : Word) : State := { s with pc := target }

/-- `DT <- v`. -/
def State.setDt (s : State) (v : Byte) : State := { s with dt := v }

/-- `ST <- v`. -/
def State.setSt (s : State) (v : Byte) : State := { s with st := v }

/-- The step's `result` output (spec/40_step_cycle.md R130). -/
def State.setResult (s : State) (r : StepResult) : State := { s with result := some r }

/-- Phase 3: `pc <- (PC + 2) mod 65536` (spec/40_step_cycle.md R124). -/
def State.advancePc (s : State) : State := s.setPc (s.pc + 2#16)

/-- A skip: a further 2 where the condition holds (spec/41_control_flow.md R149). -/
def State.skipIf (s : State) (c : Bool) : State := if c then s.setPc (s.pc + 2#16) else s

/-- The block load's register writes, ascending: `V[0] .. V[k-1]` from `addr` (spec/43_memory_index.md R196). -/
def State.loadRegs (s : State) (addr : Nat) : Nat → State
  | 0 => s
  | k + 1 => (s.loadRegs addr k).writeV (BitVec.ofNat 4 k) (s.readByte (addr + k))

/-- The values of `V[0] .. V[k-1]`, lowest first (spec/43_memory_index.md R195). -/
def State.regList (s : State) (k : Nat) : List Byte := (List.range k).map (fun j => s.readV (BitVec.ofNat 4 j))

/-! ### Call stack (spec/10_state.md R30, spec/00_scope.md R11) -/

/-- `STACK[k]`; `k` below 16 in every use. -/
def State.stackAt (s : State) (k : Nat) : Word := s.stack[k]?.getD 0x0000#16

/-- `Push(v)`, none where the stack is full. -/
def State.push (s : State) (v : Word) : Option State :=
  if h : s.sp.val < 16 then
    some { s with stack := s.stack.set s.sp.val v h, sp := ⟨s.sp.val + 1, Nat.succ_lt_succ h⟩ }
  else none

/-- `Pop()`: the popped entry and the state after, none where the stack is empty. -/
def State.pop (s : State) : Option (Word × State) :=
  if s.sp.val = 0 then none
  else some (s.stackAt (s.sp.val - 1), { s with sp := ⟨s.sp.val - 1, Nat.lt_of_le_of_lt (Nat.sub_le _ _) s.sp.isLt⟩ })

/-! ### Display (spec/10_state.md R34, spec/45_display.md) -/

/-- `FB[y][x]`. -/
def Display.pixel (d : Display) (x y : Nat) : Bool := (d[y]?.getD 0#64).getLsbD x

/-- `FB[y][x] <- FB[y][x] xor 1`. -/
def Display.toggle (d : Display) (x y : Nat) : Display :=
  d.setIfInBounds y ((d[y]?.getD 0#64) ^^^ (1#64 <<< x))

/-- Every pixel 0 (spec/45_display.md R228). -/
def Display.blank : Display := Vector.replicate 32 0#64

/-- Pixel (x, y) of the state's display buffer. -/
def State.pixel (s : State) (x y : Nat) : Bool := s.fb.pixel x y

/-- A mutating call of the display: the new buffer, and DIRTY set whatever changed (spec/45_display.md R227). -/
def State.setDisplay (s : State) (d : Display) : State := { s with fb := d, dirty := true }

/-! ### The inputs sampled for a step (spec/40_step_cycle.md R126; log 4) -/

/-- The key vector sampled for this step: what the host has fixed, else free. -/
def State.keys (s : State) : Word :=
  match s.inputs with
  | k :: _ => k.keys
  | [] => Config.freeKeys s.tick

/-- The random byte sampled for this step: what the host has fixed, else free. -/
def State.rnd (s : State) : Byte :=
  match s.inputs with
  | k :: _ => k.rnd
  | [] => Config.freeRnd s.tick

/-- The sample has been used: the next step samples anew. -/
def State.consumeInputs (s : State) : State := { s with inputs := s.inputs.tail, tick := s.tick + 1 }

/-! ### How a body ends -/

/-- The body completed with result Ok (spec/40_step_cycle.md R130). -/
def State.done (s : State) : Host.Outcome State Fault Refusal := .next (s.setResult .ok)

/-- The body found no key: PC back to this instruction, result NeedsInput (spec/40_step_cycle.md R131). -/
def State.needsInput (s : State) : State := (s.setPc (s.pc - 2#16)).setResult .needsInput

/-- `raise Fatal(cause, info)`, applied to the state of BEFORE the step: everything keeps its value but the halt latch
and the outputs (spec/60_exceptions.md R259, spec/40_step_cycle.md R132). -/
def State.raiseFatal (s : State) (cause : Cause) (info : Word) : State :=
  { s with halt := true, hcause := cause, hinfo := info, tone := false, result := some (.fatal cause info) }

/-- `reset`, the only exit from HALT = 1 (spec/60_exceptions.md R260, spec/70_reset_and_hazards.md R290): every piece of
state at its reset value, memory untouched (R292), the host's input schedule untouched (log 4). -/
def State.applyReset (s : State) : State :=
  { State.reset with mem := s.mem, inputs := s.inputs, tick := s.tick }

/-! ### The phases around the body -/

/-- A step requested while HALT = 1: nothing changes, `result` is again the latched condition (R121). -/
def State.stepHalted (s : State) : State :=
  { s with tone := false, result := some (.fatal s.hcause s.hinfo) }

/-- A timer after one tick: it stops at 0 (spec/40_step_cycle.md R127, R128). -/
def tickDown (t : Byte) : Byte := if t = 0#8 then 0#8 else t - 1#8

/-- One tick of both timers; the tone sounds exactly where ST was 1 (R127, R128). -/
def State.tickTimers (s : State) : State :=
  { s with dt := tickDown s.dt, st := tickDown s.st, tone := decide (s.st = 1#8) }

/-- Phase 5; it does not run in a step that raised a fatal condition (R129). -/
def State.timerPhase (s : State) : State := if s.halt then s else s.tickTimers

/-- The end of a running step, given the outcome of its body: the timer phase, and the sample is used up. -/
def finishStep : Host.Outcome State Fault Refusal → Host.Outcome State Fault Refusal
  | .next t => .next t.timerPhase.consumeInputs
  | .fault f => .fault f
  | .refused r => .refused r

/-- A running step whose word decodes to nothing: UnknownOpcode, raised at decode (R123). -/
def State.undecodable (s : State) : State := (s.raiseFatal .unknownOpcode s.fetchWord).consumeInputs

/-! ### The host between steps (spec/70_reset_and_hazards.md R295 to R299) -/

/-- What the host may do between two steps (R299). -/
inductive HostAct where
  /-- assert `present` -/
  | present
  /-- assert `reset` -/
  | reset
  /-- fix the inputs of the coming steps -/
  | drive (ks : List Inputs)
  deriving DecidableEq, Repr

/-- The effect of a host action on the machine (R299; `present`: spec/10_state.md R38). -/
def State.hostAct (s : State) : HostAct → State
  | .present => { s with dirty := false }
  | .reset => s.applyReset
  | .drive ks => { s with inputs := ks }

/-- The host's bulk write before launch, ROM byte j to address 0x200 + j (R296). -/
def State.loadProgram (s : State) (rom : List Byte) : State := s.writeBytes Config.loadAddr.toNat rom

/-- The host's load of the font before launch (spec/43_memory_index.md R193). -/
def State.loadFont (s : State) : State := s.writeBytes Config.fontBase Config.fontBytes

/-- The launch state whose memory is the given MEM_INIT, lowest address first (spec/00_scope.md R7, decision D16). -/
def State.launch (memInit : List Byte) : State := State.reset.writeBytes 0 memInit

/-- Bit `k` of the `fb` output: pixel (x, y) is bit y*64 + x (spec/00_scope.md R8). -/
def State.fbBit (s : State) (k : Nat) : Bool := s.pixel (k % Config.dispW) (k / Config.dispW)

/-- The machine with the table word `w` where the next step fetches, and running. -/
def State.placeWord (s : State) (nbits w : Nat) : State :=
  { (s.writeByte s.pc.toNat (highByte (tableWord nbits w))).writeByte (s.pc.toNat + 1) (lowByte (tableWord nbits w))
    with halt := false }

end Sys2Proof.Machine
end

