-- ==== Sys2Proof/Machine/Operands.lean ====
section
/-! DEFINITION. The operand forms: zero-extended immediates (spec/30_encoding.md R93), the one addressing mode
(spec/43_memory_index.md R197), the glyph address, the key number, the lowest key that is down, the BCD digits. -/

namespace Sys2Proof.Machine

/-- `zext_16(nnn)` (R93). -/
def zextNnn (nnn : Imm12) : Word := nnn.setWidth 16

/-- `zext_16` of a register value. -/
def zextByte (v : Byte) : Word := v.setWidth 16

/-- `I + k`, the base of every data access, as an unbounded sum; memory reduces it modulo 4096 (R197, R62). -/
def State.ea (s : State) (k : Nat) : Nat := s.i.toNat + k

/-- Bits 3:0 of a register value: a digit (spec/43_memory_index.md R192) or a key number (spec/46_input.md R244). -/
def lowNibble (v : Byte) : Nat := v.toNat % 16

/-- `FONT_BASE + 5 * Vx[3:0]` (spec/43_memory_index.md R192). -/
def glyphAddr (v : Byte) : Word := BitVec.ofNat 16 (Config.fontBase + Config.fontStride * lowNibble v)

/-- `Key(k)` on the sampled vector (spec/46_input.md R240). -/
def keyDown (keys : Word) (k : Nat) : Bool := keys.getLsbD k

/-- The least `k` in 0..15 with `Key(k) = 1`, none where no key is down (spec/46_input.md R243). -/
def lowestKey (keys : Word) : Option Nat := (List.range 16).find? (fun k => keyDown keys k)

/-- Hundreds, tens and ones of a register value (spec/43_memory_index.md R194). -/
def bcdDigits (v : Byte) : List Byte :=
  [BitVec.ofNat 8 (v.toNat / 100), BitVec.ofNat 8 (v.toNat / 10 % 10), BitVec.ofNat 8 (v.toNat % 10)]

end Sys2Proof.Machine
end

