-- ==== Sys2Proof/Machine/ArithLogic.lean ====
section
/-! DEFINITION. Meanings of the arithmetic, logic and random-byte instructions (spec/42_arith_logic.md). Operands are read
before any write, the result is written to Vx, a flag is written to VF last (R171). -/

namespace Sys2Proof.Machine

/-- LD Vx,nn (R160). -/
def execLdVxNn (x : Nibble) (nn : Byte) (s : State) : Host.Outcome State Fault Refusal :=
  (s.advancePc.writeV x nn).done

/-- ADD Vx,nn (R161): no flag. -/
def execAddVxNn (x : Nibble) (nn : Byte) (s : State) : Host.Outcome State Fault Refusal :=
  (s.advancePc.writeV x (s.readV x + nn)).done

/-- LD Vx,Vy (R162). -/
def execLdVxVy (x y : Nibble) (s : State) : Host.Outcome State Fault Refusal :=
  (s.advancePc.writeV x (s.readV y)).done

/-- OR Vx,Vy (R163). -/
def execOrVxVy (x y : Nibble) (s : State) : Host.Outcome State Fault Refusal :=
  (s.advancePc.writeV x (s.readV x ||| s.readV y)).done

/-- AND Vx,Vy (R164). -/
def execAndVxVy (x y : Nibble) (s : State) : Host.Outcome State Fault Refusal :=
  (s.advancePc.writeV x (s.readV x &&& s.readV y)).done

/-- XOR Vx,Vy (R165). -/
def execXorVxVy (x y : Nibble) (s : State) : Host.Outcome State Fault Refusal :=
  (s.advancePc.writeV x (s.readV x ^^^ s.readV y)).done

/-- ADD Vx,Vy (R166): VF is the carry. -/
def execAddVxVy (x y : Nibble) (s : State) : Host.Outcome State Fault Refusal :=
  ((s.advancePc.writeV x (s.readV x + s.readV y)).writeFlag (carryFlag (s.readV x) (s.readV y))).done

/-- SUB Vx,Vy (R167): VF is Vx > Vy. -/
def execSubVxVy (x y : Nibble) (s : State) : Host.Outcome State Fault Refusal :=
  ((s.advancePc.writeV x (s.readV x - s.readV y)).writeFlag (greaterFlag (s.readV x) (s.readV y))).done

/-- SUBN Vx,Vy (R169): VF is Vy > Vx. -/
def execSubnVxVy (x y : Nibble) (s : State) : Host.Outcome State Fault Refusal :=
  ((s.advancePc.writeV x (s.readV y - s.readV x)).writeFlag (greaterFlag (s.readV y) (s.readV x))).done

/-- The register the shifts read: Vx; the `y` field is ignored (R168, R170, R96, decision D8). -/
def shiftSource (x _y : Nibble) : Nibble := x

/-- SHR Vx (R168). -/
def execShrVx (x y : Nibble) (s : State) : Host.Outcome State Fault Refusal :=
  let a := s.readV (shiftSource x y)
  ((s.advancePc.writeV x (a >>> 1)).writeFlag (shrFlag a)).done

/-- SHL Vx (R170). -/
def execShlVx (x y : Nibble) (s : State) : Host.Outcome State Fault Refusal :=
  let a := s.readV (shiftSource x y)
  ((s.advancePc.writeV x (a <<< 1)).writeFlag (shlFlag a)).done

/-- RND Vx,nn (R172): the sampled random byte and nn. -/
def execRndVxNn (x : Nibble) (nn : Byte) (s : State) : Host.Outcome State Fault Refusal :=
  (s.advancePc.writeV x (s.rnd &&& nn)).done

end Sys2Proof.Machine
end

