-- ==== Sys2Proof/Machine/ControlFlow.lean ====
section
/-! DEFINITION. Meanings of the control-flow instructions (spec/41_control_flow.md). Each meaning is phases 3 and 4 of
the step: it advances PC by 2 before its body (spec/40_step_cycle.md R124), or raises a fatal condition on the state of
before the step (log 8). -/

namespace Sys2Proof.Machine

/-- SYS nnn (R140): UnknownOpcode, PC not advanced. -/
def execSysNnn (nnn : Imm12) (s : State) : Host.Outcome State Fault Refusal :=
  .next (s.raiseFatal .unknownOpcode (encode (.sysNnn nnn)))

/-- CLS (R141). -/
def execCls (s : State) : Host.Outcome State Fault Refusal :=
  (s.advancePc.setDisplay Display.blank).done

/-- RET (R142). -/
def execRet (s : State) : Host.Outcome State Fault Refusal :=
  match s.advancePc.pop with
  | some (target, t) => (t.setPc target).done
  | none => .next (s.raiseFatal .stackUnderflow (encode .ret))

/-- JP nnn (R143). -/
def execJpNnn (nnn : Imm12) (s : State) : Host.Outcome State Fault Refusal :=
  (s.advancePc.setPc (zextNnn nnn)).done

/-- CALL nnn (R144). -/
def execCallNnn (nnn : Imm12) (s : State) : Host.Outcome State Fault Refusal :=
  match s.advancePc.push s.advancePc.pc with
  | some t => (t.setPc (zextNnn nnn)).done
  | none => .next (s.raiseFatal .stackOverflow (encode (.callNnn nnn)))

/-- SE Vx,nn (R145). -/
def execSeVxNn (x : Nibble) (nn : Byte) (s : State) : Host.Outcome State Fault Refusal :=
  (s.advancePc.skipIf (decide (s.readV x = nn))).done

/-- SNE Vx,nn (R146). -/
def execSneVxNn (x : Nibble) (nn : Byte) (s : State) : Host.Outcome State Fault Refusal :=
  (s.advancePc.skipIf (decide (s.readV x ≠ nn))).done

/-- SE Vx,Vy (R147). -/
def execSeVxVy (x y : Nibble) (s : State) : Host.Outcome State Fault Refusal :=
  (s.advancePc.skipIf (decide (s.readV x = s.readV y))).done

/-- SNE Vx,Vy (R148). -/
def execSneVxVy (x y : Nibble) (s : State) : Host.Outcome State Fault Refusal :=
  (s.advancePc.skipIf (decide (s.readV x ≠ s.readV y))).done

/-- JP V0,nnn (R150): the offset register is always V0. -/
def execJpV0Nnn (nnn : Imm12) (s : State) : Host.Outcome State Fault Refusal :=
  (s.advancePc.setPc (zextNnn nnn + zextByte (s.readV 0x0#4))).done

end Sys2Proof.Machine
end

