-- ==== Sys2Proof/Machine/Display.lean ====
section
/-! DEFINITION. The sprite rasterizer and the meaning of DRW (spec/45_display.md R220): XOR, pixel by pixel, with both
coordinates wrapped (R222) and the collision accumulated over the whole sprite (R223). -/

namespace Sys2Proof.Machine

/-- The buffer and the collision seen so far, while a sprite is drawn. -/
structure Raster where
  fb : Display
  coll : Bool
  deriving DecidableEq, Repr

/-- One set sprite bit at pixel (px, py): note a collision, then toggle. -/
def Raster.xorPixel (r : Raster) (px py : Nat) : Raster :=
  { fb := r.fb.toggle px py, coll := r.coll || r.fb.pixel px py }

/-- Columns 0 to k-1 of the sprite row `b` at column `vx`, display row `py`; bit 7 is the leftmost (R221). -/
def Raster.drawCols (r : Raster) (vx py : Nat) (b : Byte) : Nat → Raster
  | 0 => r
  | k + 1 =>
    let t := r.drawCols vx py b k
    if b.getLsbD (7 - k) then t.xorPixel ((vx + k) % Config.dispW) py else t

/-- Rows 0 to k-1 of the sprite whose row j is `row j`, at (vx, vy). -/
def Raster.drawRows (r : Raster) (vx vy : Nat) (row : Nat → Byte) : Nat → Raster
  | 0 => r
  | k + 1 => (r.drawRows vx vy row k).drawCols vx ((vy + k) % Config.dispH) (row k) 8

/-- `drawSprite`: n rows from memory at I, on the state's display (R220). -/
def State.drawSprite (s : State) (vx vy : Byte) (n : Nibble) : Raster :=
  Raster.drawRows ⟨s.fb, false⟩ vx.toNat vy.toNat (fun j => s.readByte (s.ea j)) n.toNat

/-- DRW Vx,Vy,n (R220): VF is the collision, DIRTY is set. -/
def execDrwVxVyN (x y n : Nibble) (s : State) : Host.Outcome State Fault Refusal :=
  let r := s.drawSprite (s.readV x) (s.readV y) n
  ((s.advancePc.setDisplay r.fb).writeFlag (flagOf r.coll)).done

end Sys2Proof.Machine
end

