-- ==== Sys2Proof/Machine/Input.lean ====
section
/-! DEFINITION. Meanings of the key-input instructions (spec/46_input.md), on the key vector sampled for the step. -/

namespace Sys2Proof.Machine

/-- SKP Vx (R241). -/
def execSkpVx (x : Nibble) (s : State) : Host.Outcome State Fault Refusal :=
  (s.advancePc.skipIf (keyDown s.keys (lowNibble (s.readV x)))).done

/-- SKNP Vx (R242). -/
def execSknpVx (x : Nibble) (s : State) : Host.Outcome State Fault Refusal :=
  (s.advancePc.skipIf (!keyDown s.keys (lowNibble (s.readV x)))).done

/-- LD Vx,K (R243): the lowest key that is down, or NeedsInput. -/
def execLdVxK (x : Nibble) (s : State) : Host.Outcome State Fault Refusal :=
  .next (match lowestKey s.keys with
    | none => s.advancePc.needsInput
    | some k => (s.advancePc.writeV x (BitVec.ofNat 8 k)).setResult .ok)

end Sys2Proof.Machine
end

