-- ==== Sys2Proof/Machine/MemoryIndex.lean ====
section
/-! DEFINITION. Meanings of the index-register and memory instructions (spec/43_memory_index.md). I is left unchanged by
every instruction that uses it as a base (R197). -/

namespace Sys2Proof.Machine

/-- LD I,nnn (R190). -/
def execLdINnn (nnn : Imm12) (s : State) : Host.Outcome State Fault Refusal :=
  (s.advancePc.setI (zextNnn nnn)).done

/-- ADD I,Vx (R191): wraps modulo 65536, no flag. -/
def execAddIVx (x : Nibble) (s : State) : Host.Outcome State Fault Refusal :=
  (s.advancePc.setI (s.i + zextByte (s.readV x))).done

/-- LD F,Vx (R192). -/
def execLdFVx (x : Nibble) (s : State) : Host.Outcome State Fault Refusal :=
  (s.advancePc.setI (glyphAddr (s.readV x))).done

/-- LD B,Vx (R194). -/
def execLdBVx (x : Nibble) (s : State) : Host.Outcome State Fault Refusal :=
  (s.advancePc.writeBytes (s.ea 0) (bcdDigits (s.readV x))).done

/-- LD [I],Vx (R195): V0 to Vx, x + 1 bytes. -/
def execLdMemVx (x : Nibble) (s : State) : Host.Outcome State Fault Refusal :=
  (s.advancePc.writeBytes (s.ea 0) (s.regList (x.toNat + 1))).done

/-- LD Vx,[I] (R196): x + 1 bytes into V0 to Vx. -/
def execLdVxMem (x : Nibble) (s : State) : Host.Outcome State Fault Refusal :=
  (s.advancePc.loadRegs (s.ea 0) (x.toNat + 1)).done

end Sys2Proof.Machine
end

