-- ==== Sys2Proof/Machine/Timers.lean ====
section
/-! DEFINITION. Meanings of the timer instructions (spec/44_timers.md). The countdown of the same step is the timer
phase, which follows the body (spec/40_step_cycle.md R129). -/

namespace Sys2Proof.Machine

/-- LD Vx,DT (R210). -/
def execLdVxDt (x : Nibble) (s : State) : Host.Outcome State Fault Refusal :=
  (s.advancePc.writeV x s.dt).done

/-- LD DT,Vx (R211). -/
def execLdDtVx (x : Nibble) (s : State) : Host.Outcome State Fault Refusal :=
  (s.advancePc.setDt (s.readV x)).done

/-- LD ST,Vx (R212). -/
def execLdStVx (x : Nibble) (s : State) : Host.Outcome State Fault Refusal :=
  (s.advancePc.setSt (s.readV x)).done

end Sys2Proof.Machine
end

