-- ==== Sys2Proof/Machine/Step.lean ====
section
/-! DEFINITION. The step (spec/40_step_cycle.md R120): while halted it changes nothing; else fetch, decode, the decoded
instruction (phases 3 and 4), the timer phase. -/

namespace Sys2Proof.Machine

/-- One requested step (R120, R121, R123). -/
def step (s : State) : Host.Outcome State Fault Refusal :=
  if s.halt then .next s.stepHalted
  else
    match decodeWord s.fetchWord with
    | .ok i => finishStep (exec i s)
    | .error _ => .next s.undecodable

/-- The state with a table word placed where the next step fetches it, and running (log 9). -/
def State.withFetchWord (s : State) (nbits w : Nat) : State := s.placeWord nbits w

end Sys2Proof.Machine
end

