-- ==== Sys2Proof/Machine/Requests.lean ====
section
/-! DEFINITION. The two request inputs of the block at a step boundary (spec/00_scope.md R8) and what it does when both
are raised (spec/70_reset_and_hazards.md R293). A step is indivisible, so no request falls inside one. -/

namespace Sys2Proof.Machine

/-- What is requested at one step boundary (R8). -/
structure Request where
  /-- the `reset` input -/
  reset : Bool
  /-- the `step` input -/
  step : Bool
  deriving DecidableEq, Repr

/-- The answer to a request: `reset` wins over `step` and no step is performed (R293, decision D1); with neither, the
state holds (R299). -/
def State.request (s : State) (q : Request) : Host.Outcome State Fault Refusal :=
  if q.reset then .next s.applyReset
  else if q.step then Sys2Proof.Machine.step s
  else .next s

end Sys2Proof.Machine
end

