-- ==== Sys2Proof/Safety.lean ====
section
/-! DEFINITION. The terms claims are stated in: which parts of the state are unchanged, the entry into a fatal condition
seen field by field, the whole-machine tables of the spec, the pixels a sprite targets, the invariant of the machine, and
what a safe state is. -/

namespace Sys2Proof.Machine

/-! ### Unchanged parts of the state -/

/-- Every general register reads as before. -/
def SameV (s t : State) : Prop := ∀ r, t.readV r = s.readV r

/-- Every byte of memory reads as before. -/
def SameMem (s t : State) : Prop := ∀ a, t.readByte a = s.readByte a

/-- SP and every stack entry are as before. -/
def SameStack (s t : State) : Prop := t.sp = s.sp ∧ t.stack = s.stack

/-- DT and ST are as before. -/
def SameTimers (s t : State) : Prop := t.dt = s.dt ∧ t.st = s.st

/-- The display buffer and DIRTY are as before. -/
def SameDisplay (s t : State) : Prop := t.fb = s.fb ∧ t.dirty = s.dirty

/-- HALT, HCAUSE and HINFO are as before. -/
def SameLatch (s t : State) : Prop := t.halt = s.halt ∧ t.hcause = s.hcause ∧ t.hinfo = s.hinfo

/-- The tone output and the model's own input fields are as before. -/
def SamePorts (s t : State) : Prop := t.tone = s.tone ∧ t.inputs = s.inputs ∧ t.tick = s.tick

/-- The frame of an instruction that may change general registers and PC alone (and gives its result). -/
def OnlyRegsAndPc (s t : State) : Prop :=
  t.i = s.i ∧ SameStack s t ∧ SameTimers s t ∧ SameMem s t ∧ SameDisplay s t ∧ SameLatch s t ∧ SamePorts s t

/-- The frame of an instruction that may change PC alone. -/
def OnlyPc (s t : State) : Prop := SameV s t ∧ OnlyRegsAndPc s t

/-- The frame of an instruction that may change I and PC alone. -/
def OnlyIAndPc (s t : State) : Prop :=
  SameV s t ∧ SameStack s t ∧ SameTimers s t ∧ SameMem s t ∧ SameDisplay s t ∧ SameLatch s t ∧ SamePorts s t

/-- The frame of an instruction that may change memory and PC alone; the bytes are said beside it. -/
def OnlyMemAndPc (s t : State) : Prop :=
  SameV s t ∧ t.i = s.i ∧ SameStack s t ∧ SameTimers s t ∧ SameDisplay s t ∧ SameLatch s t ∧ SamePorts s t

/-- A body that completed: a next state with result Ok. -/
def CompletesTo (i : Instr) (s t : State) : Prop := exec i s = .next t ∧ t.result = some .ok

/-- All the architectural state of R132 is as before: V, I, PC, SP, STACK, DT, ST, MEM, FB, DIRTY. -/
def SameArchState (s t : State) : Prop :=
  SameV s t ∧ t.pc = s.pc ∧ t.i = s.i ∧ SameStack s t ∧ SameTimers s t ∧ SameMem s t ∧ SameDisplay s t

/-- `raise Fatal(c, w)` (spec/60_exceptions.md R259), field by field. -/
def FatalEntry (s t : State) (c : Cause) (w : Word) : Prop :=
  SameArchState s t ∧ t.halt = true ∧ t.hcause = c ∧ t.hinfo = w ∧ t.tone = false ∧ t.result = some (.fatal c w)

/-! ### Whole-machine tables -/

/-- The illegal words of spec/30_encoding.md R101, family by family. -/
def IllegalWord (w : Word) : Prop :=
  let family := w.toNat / 4096
  let n := w.toNat % 16
  let nn := w.toNat % 256
  (family = 0x0 ∧ w ≠ 0x00E0#16 ∧ w ≠ 0x00EE#16) ∨
  (family = 0x5 ∧ n ≠ 0) ∨
  (family = 0x8 ∧ n ∈ [0x8, 0x9, 0xA, 0xB, 0xC, 0xD, 0xF]) ∨
  (family = 0x9 ∧ n ≠ 0) ∨
  (family = 0xE ∧ nn ≠ 0x9E ∧ nn ≠ 0xA1) ∨
  (family = 0xF ∧ nn ∉ [0x07, 0x0A, 0x15, 0x18, 0x1E, 0x29, 0x33, 0x55, 0x65])

/-- The instruction is a SYS word, which is illegal (spec/41_control_flow.md R140). -/
def isSys : Instr → Bool
  | .sysNnn _ => true
  | _ => false

/-- The table of spec/10_state.md R22: may the instruction change `V[r]`? -/
def mayWriteV (i : Instr) (r : Nibble) : Bool :=
  match i with
  | .ldVxNn x _ => r == x
  | .addVxNn x _ => r == x
  | .ldVxVy x _ => r == x
  | .orVxVy x _ => r == x
  | .andVxVy x _ => r == x
  | .xorVxVy x _ => r == x
  | .addVxVy x _ => r == x || r == regVF
  | .subVxVy x _ => r == x || r == regVF
  | .subnVxVy x _ => r == x || r == regVF
  | .shrVx x _ => r == x || r == regVF
  | .shlVx x _ => r == x || r == regVF
  | .rndVxNn x _ => r == x
  | .drwVxVyN _ _ _ => r == regVF
  | .ldVxDt x => r == x
  | .ldVxK x => r == x
  | .ldVxMem x => decide (r.toNat ≤ x.toNat)
  | _ => false

/-- The table of spec/20_memory.md R61: does the instruction store to the byte at address `a` (below 4096)? -/
def storesTo (i : Instr) (s : State) (a : Nat) : Prop :=
  match i with
  | .ldBVx _ => ∃ k < 3, a = s.ea k % Config.memSize
  | .ldMemVx x => ∃ k ≤ x.toNat, a = s.ea k % Config.memSize
  | _ => False

/-- The instructions that may write I (spec/10_state.md R29). -/
def writesI : Instr → Bool
  | .ldINnn _ => true
  | .addIVx _ => true
  | .ldFVx _ => true
  | _ => false

/-- The instructions that mutate the display (spec/45_display.md R228). -/
def drawsOrClears : Instr → Bool
  | .cls => true
  | .drwVxVyN _ _ _ => true
  | _ => false

/-- The instructions to which the key vector matters (spec/40_step_cycle.md R126). -/
def usesKeys : Instr → Bool
  | .skpVx _ => true
  | .sknpVx _ => true
  | .ldVxK _ => true
  | _ => false

/-- The instruction to which the random byte matters (spec/40_step_cycle.md R126). -/
def usesRnd : Instr → Bool
  | .rndVxNn _ _ => true
  | _ => false

/-- Where a skip leaves PC: 4 on where the condition holds, else 2 (spec/10_state.md R27). -/
def skipTo (p : Word) (c : Prop) [Decidable c] : Word := if c then p + 4#16 else p + 2#16

/-- The table of spec/10_state.md R27: PC after the instruction. -/
def pcAfter (i : Instr) (s : State) : Word :=
  match i with
  | .seVxNn x nn => skipTo s.pc (s.readV x = nn)
  | .sneVxNn x nn => skipTo s.pc (s.readV x ≠ nn)
  | .seVxVy x y => skipTo s.pc (s.readV x = s.readV y)
  | .sneVxVy x y => skipTo s.pc (s.readV x ≠ s.readV y)
  | .skpVx x => skipTo s.pc (keyDown s.keys (lowNibble (s.readV x)) = true)
  | .sknpVx x => skipTo s.pc (keyDown s.keys (lowNibble (s.readV x)) = false)
  | .jpNnn nnn => BitVec.ofNat 16 nnn.toNat
  | .callNnn nnn => if s.sp.val = 16 then s.pc else BitVec.ofNat 16 nnn.toNat
  | .jpV0Nnn nnn => BitVec.ofNat 16 (nnn.toNat + (s.readV 0x0#4).toNat)
  | .ret => if s.sp.val = 0 then s.pc else s.stackAt (s.sp.val - 1)
  | .ldVxK _ => if s.keys = 0#16 then s.pc else s.pc + 2#16
  | .sysNnn _ => s.pc
  | _ => s.pc + 2#16

/-- The sprite of `DRW Vx,Vy,n` in state `s` has a set bit whose target is pixel (p, q) (spec/45_display.md R220). -/
def spriteHits (s : State) (x y n : Nibble) (p q : Nat) : Prop :=
  ∃ row < n.toNat, ∃ col < 8, (s.readByte (s.ea row)).getLsbD (7 - col) = true ∧
    p = ((s.readV x).toNat + col) % 64 ∧ q = ((s.readV y).toNat + row) % 32

/-- The sprite of height `n` at I in state `s` has at least one set bit (spec/45_display.md R224). -/
def spriteHasSetBit (s : State) (n : Nibble) : Prop :=
  ∃ row < n.toNat, ∃ col < 8, (s.readByte (s.ea row)).getLsbD (7 - col) = true

/-! ### The invariant, and safety -/

/-- While the machine is halted, the latch tells what stopped it: HINFO is the word at PC, and it and SP bear HCAUSE out
(spec/60_exceptions.md R255, R259). -/
def LatchTruthful (s : State) : Prop :=
  s.halt = true →
    s.fetchWord = s.hinfo ∧
    match s.hcause with
    | .unknownOpcode => IllegalWord s.hinfo
    | .stackUnderflow => s.hinfo = 0x00EE#16 ∧ s.sp.val = 0
    | .stackOverflow => s.hinfo.toNat / 4096 = 0x2 ∧ s.sp.val = 16

/-- The invariant of the machine: memory is in its canonical form and the halt latch tells the truth. -/
def State.Inv (s : State) : Prop := s.mem.wf = true ∧ LatchTruthful s

/-- A safe state: the machine is not halted (spec/60_exceptions.md R271). -/
def State.Safe (s : State) : Prop := s.halt = false

/-- A run of `k` steps is safe: it answers a next state and that state is safe. Nothing but reset clears HALT (R260), so
every state before it was safe too. -/
def SafeRun (k : Nat) (s : State) : Prop := ∃ t : State, Host.Core.run Sys2Proof.core k s = .next t ∧ t.Safe

end Sys2Proof.Machine
end

