-- ==== Sys2Proof/Certificates/Slice0/Obligations.lean ====
section
/-! DEFINITION. The statements for the provers. Each docstring names the rule of spec/ it rests on. -/

open Sys2Proof Sys2Proof.Machine

/-- SYS nnn raises UnknownOpcode with its own word, PC not advanced (41_control_flow.md R140, 40_step_cycle.md R123). Rests on the model's own choice: log 7. -/
def Obligations.SysRaisesUnknownOpcode : Prop :=
  ∀ (nnn : Imm12) (s : State), nnn ≠ 0x0E0#12 → nnn ≠ 0x0EE#12 →
    decodeWord (wordNnn 0x0#4 nnn) = .ok (.sysNnn nnn) ∧
    ∃ t, exec (.sysNnn nnn) s = .next t ∧ FatalEntry s t .unknownOpcode (wordNnn 0x0#4 nnn) ∧
      t.inputs = s.inputs ∧ t.tick = s.tick

/-- CLS: every pixel 0, DIRTY set, nothing else but PC (R141). -/
def Obligations.ClsClearsTheDisplay : Prop :=
  decodeWord 0x00E0#16 = .ok .cls ∧
  ∀ s : State, ∃ t, CompletesTo .cls s t ∧ (∀ x < 64, ∀ y < 32, t.pixel x y = false) ∧ t.dirty = true ∧
    t.pc = s.pc + 2#16 ∧ SameV s t ∧ t.i = s.i ∧ SameStack s t ∧ SameTimers s t ∧ SameMem s t ∧ SameLatch s t ∧
    SamePorts s t

/-- RET: PC is the popped entry, SP one lower; on an empty stack StackUnderflow (R142). -/
def Obligations.RetPopsOrUnderflows : Prop :=
  decodeWord 0x00EE#16 = .ok .ret ∧
  ∀ s : State,
    (s.sp.val ≠ 0 → ∃ t, CompletesTo .ret s t ∧ t.pc = s.stackAt (s.sp.val - 1) ∧ t.sp.val + 1 = s.sp.val ∧
      t.stack = s.stack ∧ SameV s t ∧ t.i = s.i ∧ SameTimers s t ∧ SameMem s t ∧ SameDisplay s t ∧ SameLatch s t ∧
      SamePorts s t) ∧
    (s.sp.val = 0 → ∃ t, exec .ret s = .next t ∧ FatalEntry s t .stackUnderflow 0x00EE#16 ∧
      t.inputs = s.inputs ∧ t.tick = s.tick)

/-- JP nnn: PC is nnn zero-extended, nothing else changes (R143). -/
def Obligations.JpSetsPcToNnn : Prop :=
  ∀ (nnn : Imm12) (s : State), decodeWord (wordNnn 0x1#4 nnn) = .ok (.jpNnn nnn) ∧
    ∃ t, CompletesTo (.jpNnn nnn) s t ∧ t.pc.toNat = nnn.toNat ∧ OnlyPc s t

/-- CALL nnn: pushes PC + 2, jumps to nnn; on a full stack StackOverflow; a RET then returns (R144). -/
def Obligations.CallPushesAndJumps : Prop :=
  ∀ (nnn : Imm12) (s : State), decodeWord (wordNnn 0x2#4 nnn) = .ok (.callNnn nnn) ∧
    (s.sp.val < 16 → ∃ t, CompletesTo (.callNnn nnn) s t ∧ t.pc.toNat = nnn.toNat ∧ t.sp.val = s.sp.val + 1 ∧
      t.stackAt s.sp.val = s.pc + 2#16 ∧ (∀ k < 16, k ≠ s.sp.val → t.stackAt k = s.stackAt k) ∧
      SameV s t ∧ t.i = s.i ∧ SameTimers s t ∧ SameMem s t ∧ SameDisplay s t ∧ SameLatch s t ∧ SamePorts s t ∧
      ∃ u, CompletesTo .ret t u ∧ u.pc = s.pc + 2#16 ∧ u.sp = s.sp) ∧
    (s.sp.val = 16 → ∃ t, exec (.callNnn nnn) s = .next t ∧
      FatalEntry s t .stackOverflow (wordNnn 0x2#4 nnn) ∧ t.inputs = s.inputs ∧ t.tick = s.tick)

/-- JP V0,nnn: PC is nnn + V0, never cut to 12 bits (R150). -/
def Obligations.JpV0AddsV0 : Prop :=
  ∀ (nnn : Imm12) (s : State), decodeWord (wordNnn 0xB#4 nnn) = .ok (.jpV0Nnn nnn) ∧
    ∃ t, CompletesTo (.jpV0Nnn nnn) s t ∧ t.pc.toNat = nnn.toNat + (s.readV 0x0#4).toNat ∧ OnlyPc s t

/-- SE Vx,nn and SNE Vx,nn: PC + 4 where the condition holds, else PC + 2; nothing else changes (R145, R146). -/
def Obligations.ImmediateSkips : Prop :=
  ∀ (x : Nibble) (nn : Byte) (s : State), decodeWord (wordXnn 0x3#4 x nn) = .ok (.seVxNn x nn) ∧ decodeWord (wordXnn 0x4#4 x nn) = .ok (.sneVxNn x nn) ∧
    (∃ t, CompletesTo (.seVxNn x nn) s t ∧ ((s.readV x = nn) → t.pc = s.pc + 4#16) ∧ (¬ (s.readV x = nn) → t.pc = s.pc + 2#16) ∧ OnlyPc s t) ∧
    (∃ t, CompletesTo (.sneVxNn x nn) s t ∧ ((s.readV x ≠ nn) → t.pc = s.pc + 4#16) ∧ (¬ (s.readV x ≠ nn) → t.pc = s.pc + 2#16) ∧ OnlyPc s t)

/-- SE Vx,Vy and SNE Vx,Vy: PC + 4 where the condition holds, else PC + 2; other low nibbles are illegal (R147, R148). -/
def Obligations.RegisterSkips : Prop :=
  ∀ (x y : Nibble) (s : State), decodeWord (wordXyn 0x5#4 x y 0x0#4) = .ok (.seVxVy x y) ∧ decodeWord (wordXyn 0x9#4 x y 0x0#4) = .ok (.sneVxVy x y) ∧
    (∃ t, CompletesTo (.seVxVy x y) s t ∧ ((s.readV x = s.readV y) → t.pc = s.pc + 4#16) ∧ (¬ (s.readV x = s.readV y) → t.pc = s.pc + 2#16) ∧ OnlyPc s t) ∧
    (∃ t, CompletesTo (.sneVxVy x y) s t ∧ ((s.readV x ≠ s.readV y) → t.pc = s.pc + 4#16) ∧ (¬ (s.readV x ≠ s.readV y) → t.pc = s.pc + 2#16) ∧ OnlyPc s t) ∧
    (∀ n : Nibble, n ≠ 0x0#4 →
      decodeWord (wordXyn 0x5#4 x y n) = .error (.unknownOpcode (wordXyn 0x5#4 x y n)) ∧
      decodeWord (wordXyn 0x9#4 x y n) = .error (.unknownOpcode (wordXyn 0x9#4 x y n)))

/-- LD Vx,nn: Vx is nn, also where x is F; nothing else but PC changes (R160). -/
def Obligations.LdVxNnLoadsTheImmediate : Prop :=
  ∀ (x : Nibble) (nn : Byte) (s : State), decodeWord (wordXnn 0x6#4 x nn) = .ok (.ldVxNn x nn) ∧
    ∃ t, CompletesTo (.ldVxNn x nn) s t ∧ (∀ r, t.readV r = if r = x then nn else s.readV r) ∧
      t.pc = s.pc + 2#16 ∧ OnlyRegsAndPc s t

/-- ADD Vx,nn: Vx is (Vx + nn) mod 256 and no flag is written (R161). -/
def Obligations.AddImmediateWrapsWithoutFlag : Prop :=
  ∀ (x : Nibble) (nn : Byte) (s : State), decodeWord (wordXnn 0x7#4 x nn) = .ok (.addVxNn x nn) ∧
    ∃ t, CompletesTo (.addVxNn x nn) s t ∧ (t.readV x).toNat = ((s.readV x).toNat + nn.toNat) % 256 ∧
      (∀ r, r ≠ x → t.readV r = s.readV r) ∧ t.pc = s.pc + 2#16 ∧ OnlyRegsAndPc s t

/-- LD Vx,Vy: Vx is Vy; nothing else but PC changes (R162). -/
def Obligations.LdVxVyCopies : Prop :=
  ∀ (x y : Nibble) (s : State), decodeWord (wordXyn 0x8#4 x y 0x0#4) = .ok (.ldVxVy x y) ∧
    ∃ t, CompletesTo (.ldVxVy x y) s t ∧ (∀ r, t.readV r = if r = x then s.readV y else s.readV r) ∧
      t.pc = s.pc + 2#16 ∧ OnlyRegsAndPc s t

/-- OR, AND, XOR Vx,Vy: Vx is the bitwise result and no flag is written (R163, R164, R165). -/
def Obligations.LogicOpsWriteVxOnly : Prop :=
  ∀ (x y : Nibble) (s : State),
    decodeWord (wordXyn 0x8#4 x y 0x1#4) = .ok (.orVxVy x y) ∧
    decodeWord (wordXyn 0x8#4 x y 0x2#4) = .ok (.andVxVy x y) ∧
    decodeWord (wordXyn 0x8#4 x y 0x3#4) = .ok (.xorVxVy x y) ∧
    (∃ t, CompletesTo (.orVxVy x y) s t ∧
      (∀ k, (t.readV x).getLsbD k = ((s.readV x).getLsbD k || (s.readV y).getLsbD k)) ∧
      (∀ r, r ≠ x → t.readV r = s.readV r) ∧ t.pc = s.pc + 2#16 ∧ OnlyRegsAndPc s t) ∧
    (∃ t, CompletesTo (.andVxVy x y) s t ∧
      (∀ k, (t.readV x).getLsbD k = ((s.readV x).getLsbD k && (s.readV y).getLsbD k)) ∧
      (∀ r, r ≠ x → t.readV r = s.readV r) ∧ t.pc = s.pc + 2#16 ∧ OnlyRegsAndPc s t) ∧
    (∃ t, CompletesTo (.xorVxVy x y) s t ∧
      (∀ k, (t.readV x).getLsbD k = ((s.readV x).getLsbD k ^^ (s.readV y).getLsbD k)) ∧
      (∀ r, r ≠ x → t.readV r = s.readV r) ∧ t.pc = s.pc + 2#16 ∧ OnlyRegsAndPc s t)

/-- ADD Vx,Vy: Vx is the sum mod 256, VF the carry, written last (R166). -/
def Obligations.AddWithCarry : Prop :=
  ∀ (x y : Nibble) (s : State), decodeWord (wordXyn 0x8#4 x y 0x4#4) = .ok (.addVxVy x y) ∧
    ∃ t, CompletesTo (.addVxVy x y) s t ∧
      t.readV regVF = (if (s.readV x).toNat + (s.readV y).toNat > 255 then 0x01#8 else 0x00#8) ∧
      (x ≠ regVF → (t.readV x).toNat = ((s.readV x).toNat + (s.readV y).toNat) % 256) ∧
      (∀ r, r ≠ x → r ≠ regVF → t.readV r = s.readV r) ∧ t.pc = s.pc + 2#16 ∧ OnlyRegsAndPc s t

/-- SUB Vx,Vy: Vx is Vx - Vy mod 256, VF is 1 iff Vx > Vy strictly, written last (R167). -/
def Obligations.SubtractSetsVFWhenGreater : Prop :=
  ∀ (x y : Nibble) (s : State), decodeWord (wordXyn 0x8#4 x y 0x5#4) = .ok (.subVxVy x y) ∧
    ∃ t, CompletesTo (.subVxVy x y) s t ∧
      t.readV regVF = (if (s.readV x).toNat > (s.readV y).toNat then 0x01#8 else 0x00#8) ∧
      (x ≠ regVF → (t.readV x).toNat = ((s.readV x).toNat + 256 - (s.readV y).toNat) % 256) ∧
      (∀ r, r ≠ x → r ≠ regVF → t.readV r = s.readV r) ∧ t.pc = s.pc + 2#16 ∧ OnlyRegsAndPc s t

/-- SUBN Vx,Vy: Vx is Vy - Vx mod 256, VF is 1 iff Vy > Vx strictly, written last (R169). -/
def Obligations.SubtractReversedSetsVFWhenGreater : Prop :=
  ∀ (x y : Nibble) (s : State), decodeWord (wordXyn 0x8#4 x y 0x7#4) = .ok (.subnVxVy x y) ∧
    ∃ t, CompletesTo (.subnVxVy x y) s t ∧
      t.readV regVF = (if (s.readV y).toNat > (s.readV x).toNat then 0x01#8 else 0x00#8) ∧
      (x ≠ regVF → (t.readV x).toNat = ((s.readV y).toNat + 256 - (s.readV x).toNat) % 256) ∧
      (∀ r, r ≠ x → r ≠ regVF → t.readV r = s.readV r) ∧ t.pc = s.pc + 2#16 ∧ OnlyRegsAndPc s t

/-- SHR Vx: Vx is halved, VF the old bit 0, written last, whatever y is (R168). -/
def Obligations.ShiftRightCapturesBitZero : Prop :=
  ∀ (x y : Nibble) (s : State), decodeWord (wordXyn 0x8#4 x y 0x6#4) = .ok (.shrVx x y) ∧
    ∃ t, CompletesTo (.shrVx x y) s t ∧
      t.readV regVF = (if (s.readV x).toNat % 2 = 1 then 0x01#8 else 0x00#8) ∧
      (x ≠ regVF → (t.readV x).toNat = (s.readV x).toNat / 2) ∧
      (∀ r, r ≠ x → r ≠ regVF → t.readV r = s.readV r) ∧ t.pc = s.pc + 2#16 ∧ OnlyRegsAndPc s t

/-- SHL Vx: Vx is doubled mod 256, VF the old bit 7, written last, whatever y is (R170). -/
def Obligations.ShiftLeftCapturesBitSeven : Prop :=
  ∀ (x y : Nibble) (s : State), decodeWord (wordXyn 0x8#4 x y 0xE#4) = .ok (.shlVx x y) ∧
    ∃ t, CompletesTo (.shlVx x y) s t ∧
      t.readV regVF = (if (s.readV x).toNat ≥ 128 then 0x01#8 else 0x00#8) ∧
      (x ≠ regVF → (t.readV x).toNat = 2 * (s.readV x).toNat % 256) ∧
      (∀ r, r ≠ x → r ≠ regVF → t.readV r = s.readV r) ∧ t.pc = s.pc + 2#16 ∧ OnlyRegsAndPc s t

/-- RND Vx,nn: Vx is the sampled random byte and nn; the sample is the head of the model's input list (42_arith_logic.md R172). Rests on the model's own choice: log 4. -/
def Obligations.RandomByteIsMasked : Prop :=
  ∀ (x : Nibble) (nn : Byte) (s : State), decodeWord (wordXnn 0xC#4 x nn) = .ok (.rndVxNn x nn) ∧
    (∃ t, CompletesTo (.rndVxNn x nn) s t ∧
      (∀ k, (t.readV x).getLsbD k = (s.rnd.getLsbD k && nn.getLsbD k)) ∧
      (∀ r, r ≠ x → t.readV r = s.readV r) ∧ t.pc = s.pc + 2#16 ∧ OnlyRegsAndPc s t) ∧
    (∀ (ks : Word) (r : Byte) (rest : List Inputs), s.inputs = ⟨ks, r⟩ :: rest → s.rnd = r)

/-- LD I,nnn: I is nnn zero-extended; nothing else but PC changes (R190). -/
def Obligations.LdISetsI : Prop :=
  ∀ (nnn : Imm12) (s : State), decodeWord (wordNnn 0xA#4 nnn) = .ok (.ldINnn nnn) ∧
    ∃ t, CompletesTo (.ldINnn nnn) s t ∧ t.i.toNat = nnn.toNat ∧ t.pc = s.pc + 2#16 ∧ OnlyIAndPc s t

/-- ADD I,Vx: I is (I + Vx) mod 65536, no flag (R191). -/
def Obligations.AddIWrapsAtSixteenBits : Prop :=
  ∀ (x : Nibble) (s : State), decodeWord (wordXnn 0xF#4 x 0x1E#8) = .ok (.addIVx x) ∧
    ∃ t, CompletesTo (.addIVx x) s t ∧ t.i.toNat = (s.i.toNat + (s.readV x).toNat) % 65536 ∧
      t.pc = s.pc + 2#16 ∧ OnlyIAndPc s t

/-- LD F,Vx: I is 5 times the low nibble of Vx (R192). -/
def Obligations.LdFComputesTheGlyphAddress : Prop :=
  ∀ (x : Nibble) (s : State), decodeWord (wordXnn 0xF#4 x 0x29#8) = .ok (.ldFVx x) ∧
    ∃ t, CompletesTo (.ldFVx x) s t ∧ t.i.toNat = 5 * ((s.readV x).toNat % 16) ∧
      t.pc = s.pc + 2#16 ∧ OnlyIAndPc s t

/-- LD B,Vx: hundreds, tens, ones at I, I+1, I+2 modulo 4096; every other byte kept (R194). -/
def Obligations.BcdStoresThreeDigits : Prop :=
  ∀ (x : Nibble) (s : State), decodeWord (wordXnn 0xF#4 x 0x33#8) = .ok (.ldBVx x) ∧
    ∃ t, CompletesTo (.ldBVx x) s t ∧
      (t.readByte (s.ea 0)).toNat = (s.readV x).toNat / 100 ∧
      (t.readByte (s.ea 1)).toNat = (s.readV x).toNat / 10 % 10 ∧
      (t.readByte (s.ea 2)).toNat = (s.readV x).toNat % 10 ∧
      (∀ a < 4096, (∀ k < 3, a ≠ s.ea k % 4096) → t.readByte a = s.readByte a) ∧
      t.pc = s.pc + 2#16 ∧ OnlyMemAndPc s t

/-- LD [I],Vx: V0 to Vx at I, I+1, ..., I+x modulo 4096; every other byte kept (R195). -/
def Obligations.BlockStoreSpillsV0ToVx : Prop :=
  ∀ (x : Nibble) (s : State), decodeWord (wordXnn 0xF#4 x 0x55#8) = .ok (.ldMemVx x) ∧
    ∃ t, CompletesTo (.ldMemVx x) s t ∧
      (∀ r : Nibble, r.toNat ≤ x.toNat → t.readByte (s.ea r.toNat) = s.readV r) ∧
      (∀ a < 4096, (∀ k ≤ x.toNat, a ≠ s.ea k % 4096) → t.readByte a = s.readByte a) ∧
      t.pc = s.pc + 2#16 ∧ OnlyMemAndPc s t

/-- LD Vx,[I]: V0 to Vx from I, I+1, ..., I+x modulo 4096; registers above x and memory kept (R196). -/
def Obligations.BlockLoadFillsV0ToVx : Prop :=
  ∀ (x : Nibble) (s : State), decodeWord (wordXnn 0xF#4 x 0x65#8) = .ok (.ldVxMem x) ∧
    ∃ t, CompletesTo (.ldVxMem x) s t ∧
      (∀ r : Nibble, r.toNat ≤ x.toNat → t.readV r = s.mem.read ((s.i.toNat + r.toNat) % 4096)) ∧
      (∀ r : Nibble, ¬ r.toNat ≤ x.toNat → t.readV r = s.readV r) ∧
      t.pc = s.pc + 2#16 ∧ OnlyRegsAndPc s t

/-- LD Vx,DT: Vx is DT before this step's decrement (R210). -/
def Obligations.LdVxDtReadsBeforeTheTick : Prop :=
  ∀ (x : Nibble) (s : State), decodeWord (wordXnn 0xF#4 x 0x07#8) = .ok (.ldVxDt x) ∧
    (∃ t, CompletesTo (.ldVxDt x) s t ∧ (∀ r, t.readV r = if r = x then s.dt else s.readV r) ∧
      t.pc = s.pc + 2#16 ∧ OnlyRegsAndPc s t) ∧
    (s.halt = false → s.fetchWord = wordXnn 0xF#4 x 0x07#8 →
      ∃ t, step s = .next t ∧ t.readV x = s.dt ∧ t.dt.toNat = s.dt.toNat - 1)

/-- LD DT,Vx: DT is Vx, and one lower after the step's timer phase (R211). -/
def Obligations.LdDtIsTickedInTheSameStep : Prop :=
  ∀ (x : Nibble) (s : State), decodeWord (wordXnn 0xF#4 x 0x15#8) = .ok (.ldDtVx x) ∧
    (∃ t, CompletesTo (.ldDtVx x) s t ∧ t.dt = s.readV x ∧ t.st = s.st ∧ t.pc = s.pc + 2#16 ∧ SameV s t ∧
      t.i = s.i ∧ SameStack s t ∧ SameMem s t ∧ SameDisplay s t ∧ SameLatch s t ∧ SamePorts s t) ∧
    (s.halt = false → s.fetchWord = wordXnn 0xF#4 x 0x15#8 →
      ∃ t, step s = .next t ∧ t.dt.toNat = (s.readV x).toNat - 1)

/-- LD ST,Vx: ST is Vx, one lower after the step, with a tone in this step iff Vx is 1 (44_timers.md R212, 40_step_cycle.md R128). -/
def Obligations.LdStSoundsInTheSameStepWhenOne : Prop :=
  ∀ (x : Nibble) (s : State), decodeWord (wordXnn 0xF#4 x 0x18#8) = .ok (.ldStVx x) ∧
    (∃ t, CompletesTo (.ldStVx x) s t ∧ t.st = s.readV x ∧ t.dt = s.dt ∧ t.pc = s.pc + 2#16 ∧ SameV s t ∧
      t.i = s.i ∧ SameStack s t ∧ SameMem s t ∧ SameDisplay s t ∧ SameLatch s t ∧ SamePorts s t) ∧
    (s.halt = false → s.fetchWord = wordXnn 0xF#4 x 0x18#8 →
      ∃ t, step s = .next t ∧ t.st.toNat = (s.readV x).toNat - 1 ∧ (t.tone = true ↔ (s.readV x).toNat = 1))

/-- SKP Vx and SKNP Vx: skip on the sampled level of key Vx[3:0]; the sample is the head of the model's input list (46_input.md R241, 46_input.md R242). Rests on the model's own choice: log 4. -/
def Obligations.KeySkips : Prop :=
  ∀ (x : Nibble) (s : State), decodeWord (wordXnn 0xE#4 x 0x9E#8) = .ok (.skpVx x) ∧ decodeWord (wordXnn 0xE#4 x 0xA1#8) = .ok (.sknpVx x) ∧
    (∃ t, CompletesTo (.skpVx x) s t ∧ ((s.keys.getLsbD ((s.readV x).toNat % 16) = true) → t.pc = s.pc + 4#16) ∧ (¬ (s.keys.getLsbD ((s.readV x).toNat % 16) = true) → t.pc = s.pc + 2#16) ∧ OnlyPc s t) ∧
    (∃ t, CompletesTo (.sknpVx x) s t ∧ ((s.keys.getLsbD ((s.readV x).toNat % 16) = false) → t.pc = s.pc + 4#16) ∧ (¬ (s.keys.getLsbD ((s.readV x).toNat % 16) = false) → t.pc = s.pc + 2#16) ∧ OnlyPc s t) ∧
    (∀ (ks : Word) (r : Byte) (rest : List Inputs), s.inputs = ⟨ks, r⟩ :: rest → s.keys = ks)

/-- LD Vx,K: the lowest key that is down goes to Vx; with none down PC stays and the result is NeedsInput (R243). -/
def Obligations.WaitForKeyTakesTheLowestKey : Prop :=
  ∀ (x : Nibble) (s : State), decodeWord (wordXnn 0xF#4 x 0x0A#8) = .ok (.ldVxK x) ∧
    (s.keys = 0#16 → ∃ t, exec (.ldVxK x) s = .next t ∧ t.result = some .needsInput ∧ t.pc = s.pc ∧ OnlyPc s t) ∧
    (s.keys ≠ 0#16 → ∃ t, CompletesTo (.ldVxK x) s t ∧
      (∃ k < 16, (t.readV x).toNat = k ∧ s.keys.getLsbD k = true ∧ ∀ j < k, s.keys.getLsbD j = false) ∧
      (∀ r, r ≠ x → t.readV r = s.readV r) ∧ t.pc = s.pc + 2#16 ∧ OnlyRegsAndPc s t) ∧
    (s.halt = false → s.fetchWord = wordXnn 0xF#4 x 0x0A#8 → s.keys = 0#16 →
      ∃ t, step s = .next t ∧ t.pc = s.pc ∧ t.result = some .needsInput ∧ t.dt.toNat = s.dt.toNat - 1 ∧
        t.st.toNat = s.st.toNat - 1 ∧ (t.tone = true ↔ s.st.toNat = 1) ∧ SameV s t ∧ t.i = s.i ∧ SameStack s t ∧
        SameMem s t ∧ SameDisplay s t ∧ SameLatch s t)

/-- DRW Vx,Vy,n: the sprite's set bits are XORed onto wrapped pixels; VF is the collision; DIRTY set (R220, R221, R223, R226). -/
def Obligations.DrawXorsTheSpriteWithCollision : Prop :=
  ∀ (x y n : Nibble) (s : State), decodeWord (wordXyn 0xD#4 x y n) = .ok (.drwVxVyN x y n) ∧
    ∃ t, CompletesTo (.drwVxVyN x y n) s t ∧
      (∀ p < 64, ∀ q < 32, (spriteHits s x y n p q → t.pixel p q = !s.pixel p q) ∧
        (¬ spriteHits s x y n p q → t.pixel p q = s.pixel p q)) ∧
      ((∃ p q, spriteHits s x y n p q ∧ s.pixel p q = true) → t.readV regVF = 0x01#8) ∧
      ((¬ ∃ p q, spriteHits s x y n p q ∧ s.pixel p q = true) → t.readV regVF = 0x00#8) ∧
      (∀ r, r ≠ regVF → t.readV r = s.readV r) ∧ t.dirty = true ∧ t.pc = s.pc + 2#16 ∧ t.i = s.i ∧
      SameStack s t ∧ SameTimers s t ∧ SameMem s t ∧ SameLatch s t ∧ SamePorts s t

/-- reset: every piece of state at its listed value, memory unchanged, no tone and no result yet (70_reset_and_hazards.md R290, 70_reset_and_hazards.md R291, 70_reset_and_hazards.md R292). Rests on the model's own choice: log 13. -/
def Obligations.ResetLeavesTheListedValues : Prop :=
  let listed (t : State) : Prop :=
    (∀ r, t.readV r = 0x00#8) ∧ t.pc = 0x0200#16 ∧ t.i = 0x0000#16 ∧ t.sp.val = 0 ∧ t.dt = 0x00#8 ∧ t.st = 0x00#8 ∧
    (∀ x < 64, ∀ y < 32, t.pixel x y = false) ∧ t.dirty = false ∧ t.halt = false ∧ t.tone = false ∧ t.result = none
  listed State.reset ∧ ∀ s : State, listed s.applyReset ∧ s.applyReset.mem = s.mem

/-- A step of a running machine is the decoded instruction, then the timer phase and the end of the sample (40_step_cycle.md §1 R120, 40_step_cycle.md §2 R122 to R125). Rests on the model's own choice: log 8. -/
def Obligations.StepRunsTheDecodedInstruction : Prop :=
  ∀ (s t : State) (i : Instr), s.halt = false → decodeWord s.fetchWord = .ok i → i.wellFormed = true →
    exec i s = .next t → step s = .next t.timerPhase.consumeInputs

/-- Fetch: the high byte at PC mod 4096, the low byte at (PC + 1) mod 4096; addresses wrap (R62, R66, R122). -/
def Obligations.FetchIsBigEndianModulo4096 : Prop :=
  ∀ s : State,
    s.fetchWord.toNat = 256 * (s.mem.read (s.pc.toNat % 4096)).toNat + (s.mem.read ((s.pc.toNat + 1) % 4096)).toNat ∧
    (s.pc.toNat % 4096 = 0xFFF → lowByte s.fetchWord = s.mem.read 0x000) ∧
    (∀ a, s.readByte a = s.mem.read (a % 4096)) ∧
    (∀ (a j : Nat) (b : Byte), (s.writeByte a b).readByte j = if j % 4096 = a % 4096 then b else s.readByte j)

/-- A step requested while halted changes no state, takes no input sample and repeats the fatal result (40_step_cycle.md R121). Rests on the model's own choice: log 14. -/
def Obligations.HaltedStepChangesNothing : Prop :=
  ∀ s : State, s.halt = true → ∃ t, step s = .next t ∧ SameArchState s t ∧ SameLatch s t ∧ t.inputs = s.inputs ∧
    t.tick = s.tick ∧ t.tone = false ∧ t.result = some (.fatal s.hcause s.hinfo)

/-- A running step that fetches an illegal word raises UnknownOpcode with that word (R123, R251). -/
def Obligations.IllegalWordRaisesUnknownOpcode : Prop :=
  ∀ s : State, s.halt = false → IllegalWord s.fetchWord →
    ∃ t, step s = .next t ∧ FatalEntry s t .unknownOpcode s.fetchWord

/-- A word decodes to an instruction other than SYS exactly if the table of illegal words does not list it (30_encoding.md R94, 30_encoding.md R101). -/
def Obligations.LegalWordsAreExactlyTheDecodedOnes : Prop :=
  ∀ w : Word, (¬ IllegalWord w ↔ ∃ i, decodeWord w = .ok i ∧ isSys i = false) ∧
    ∀ e, decodeWord w = .error e → e = .unknownOpcode w

/-- Every non-fatal step ends with DT and ST one lower, stopping at 0, and tone exactly when ST was 1 (R127, R128). -/
def Obligations.TimerPhaseTicksEveryNonFatalStep : Prop :=
  ∀ (s t : State) (i : Instr), s.halt = false → decodeWord s.fetchWord = .ok i → exec i s = .next t → t.halt = false →
    ∃ u, step s = .next u ∧ u.dt.toNat = t.dt.toNat - 1 ∧ u.st.toNat = t.st.toNat - 1 ∧
      (u.tone = true ↔ t.st.toNat = 1) ∧ SameV t u ∧ u.pc = t.pc ∧ u.i = t.i ∧ SameStack t u ∧ SameMem t u ∧
      SameDisplay t u ∧ SameLatch t u ∧ u.result = t.result

/-- A step that raises a fatal condition keeps all architectural state and sets the latch (R132, R259). -/
def Obligations.FatalStepsArePrecise : Prop :=
  ∀ s t : State, s.halt = false → step s = .next t → t.halt = true → FatalEntry s t t.hcause s.fetchWord

/-- A running step halts exactly on an illegal word, a RET with SP = 0 or a CALL with SP = 16, with that cause (R255). -/
def Obligations.MachineHaltsExactlyOnTheThreeConditions : Prop :=
  ∀ s t : State, s.halt = false → step s = .next t →
    (t.halt = true ↔ IllegalWord s.fetchWord ∨ (s.fetchWord = 0x00EE#16 ∧ s.sp.val = 0) ∨
      (s.fetchWord.toNat / 4096 = 0x2 ∧ s.sp.val = 16)) ∧
    (IllegalWord s.fetchWord → t.hcause = .unknownOpcode ∧ t.hinfo = s.fetchWord) ∧
    (s.fetchWord = 0x00EE#16 → s.sp.val = 0 → t.hcause = .stackUnderflow ∧ t.hinfo = 0x00EE#16) ∧
    (s.fetchWord.toNat / 4096 = 0x2 → s.sp.val = 16 → t.hcause = .stackOverflow ∧ t.hinfo = s.fetchWord)

/-- Every step of every state answers a next state: nothing is stuck, faulted or refused (93_implementation_defined.md Part 1, closing paragraph). -/
def Obligations.EveryStateHasASuccessor : Prop :=
  (∀ (i : Instr) (s : State), ∃ t, exec i s = .next t) ∧ ∀ s : State, ∃ t, step s = .next t

/-- Every step keeps the invariant: canonical memory, and a halt latch that tells what stopped the machine (60_exceptions.md §1 and §3, 20_memory.md §1). Rests on the model's own choice: log 1. -/
def Obligations.EveryStepKeepsTheMachineInvariant : Prop :=
  ∀ s t : State, s.Inv → step s = .next t → t.Inv

/-- The invariant holds at reset (10_state.md §12). Rests on the model's own choice: log 1. -/
def Obligations.ResetStateHasTheInvariant : Prop :=
  State.reset.Inv

/-- Whatever the host may do between steps keeps the invariant (70_reset_and_hazards.md §3, 10_state.md §8). Rests on the model's own choice: log 1, log 5, log 4. -/
def Obligations.HostActionsKeepTheMachineInvariant : Prop :=
  ∀ (s : State) (a : HostAct), s.Inv → (s.hostAct a).Inv

/-- present clears DIRTY and does nothing else (10_state.md R38). Rests on the model's own choice: log 5. -/
def Obligations.PresentClearsDirtyOnly : Prop :=
  ∀ s : State, (s.hostAct .present).dirty = false ∧ SameV s (s.hostAct .present) ∧ (s.hostAct .present).pc = s.pc ∧
    OnlyRegsAndPc { s with dirty := false } (s.hostAct .present) ∧ (s.hostAct .present).result = s.result

/-- From a halted state, a run of steps alone leaves the architectural state and the latch as they were (40_step_cycle.md R121, 60_exceptions.md R261). Rests on the model's own choice: log 5. -/
def Obligations.HaltLastsForEveryRun : Prop :=
  ∀ (k : Nat) (s : State), s.halt = true →
    ∃ t : State, Host.Core.run Sys2Proof.core k s = .next t ∧ SameArchState s t ∧ SameLatch s t

/-- Two canonical memories that list the same byte, or none, at every address are the same data (20_memory.md §1 and §5). Rests on the model's own choice: log 1. -/
def Obligations.EqualMemoriesAreEqualData : Prop :=
  ∀ m m' : Memory, m.wf = true → m'.wf = true → (∀ a < 4096, m.lookup a = m'.lookup a) → m = m'

/-- Every content of the 4096 bytes is some canonical memory and some launch state; unwritten bytes are the free MEM_INIT (10_state.md R33, R41, 00_scope.md R7, 70_reset_and_hazards.md R296, 92_eei_decisions.md D16). Rests on the model's own choice: log 1. -/
def Obligations.EveryMemInitIsAMemory : Prop :=
  (∀ f : Nat → Byte, ∃ m : Memory, m.wf = true ∧ ∀ a < 4096, m.read a = f a) ∧
  (∀ a < 4096, State.reset.readByte a = Config.memInit a) ∧
  ∀ memInit : List Byte, memInit.length = 4096 →
    (∀ (a : Nat) (h : a < memInit.length), (State.launch memInit).readByte a = memInit[a]) ∧
    (State.launch memInit).mem.wf = true ∧ (State.launch memInit).pc = State.reset.pc ∧
    (State.launch memInit).result = State.reset.result ∧ OnlyMemAndPc State.reset (State.launch memInit)

/-- PC after each instruction is what the table of R27 says (R27). -/
def Obligations.PcAfterEveryInstruction : Prop :=
  ∀ (i : Instr) (s t : State), exec i s = .next t → t.pc = pcAfter i s

/-- No instruction changes a general register that the table of R22 does not let it write (R25). -/
def Obligations.OnlyListedRegistersAreWritten : Prop :=
  ∀ (i : Instr) (s t : State) (r : Nibble), exec i s = .next t → mayWriteV i r = false → t.readV r = s.readV r

/-- No byte of memory changes but those LD B,Vx and LD [I],Vx store to (20_memory.md R61). -/
def Obligations.OnlyBcdAndBlockStoreWriteMemory : Prop :=
  ∀ (i : Instr) (s t : State), exec i s = .next t → ∀ a < 4096, ¬ storesTo i s a → t.readByte a = s.readByte a

/-- I, the stack, the timers and the display are written only by the instructions the spec names (10_state.md R29, R30, R32, R34, R35, R37). -/
def Obligations.WhichInstructionsWriteWhichState : Prop :=
  ∀ (i : Instr) (s t : State), exec i s = .next t →
    (writesI i = false → t.i = s.i) ∧
    ((∀ nnn, i ≠ .callNnn nnn) → t.stack = s.stack ∧ (i ≠ .ret → t.sp = s.sp)) ∧
    ((∀ x, i ≠ .ldDtVx x) → t.dt = s.dt) ∧ ((∀ x, i ≠ .ldStVx x) → t.st = s.st) ∧
    (drawsOrClears i = false → t.fb = s.fb ∧ t.dirty = s.dirty) ∧ (drawsOrClears i = true → t.dirty = true) ∧
    (t.halt = false → SameLatch s t)

/-- keys matters only to SKP, SKNP and LD Vx,K, and rnd only to RND (40_step_cycle.md R126). -/
def Obligations.InputsMatterOnlyToTheirInstructions : Prop :=
  ∀ (i : Instr) (s t : State) (ks : List Inputs) (n : Nat), exec i s = .next t →
    (usesKeys i = true → State.keys { s with inputs := ks, tick := n } = s.keys) →
    (usesRnd i = true → State.rnd { s with inputs := ks, tick := n } = s.rnd) →
    exec i { s with inputs := ks, tick := n } = .next { t with inputs := ks, tick := n }

/-- No instruction reads DIRTY or ST (10_state.md R40). -/
def Obligations.DirtyAndSoundTimerAreNeverRead : Prop :=
  ∀ (i : Instr) (s t : State) (d : Bool) (b : Byte), exec i s = .next t →
    ∃ u, exec i { s with dirty := d, st := b } = .next u ∧ u = { t with dirty := u.dirty, st := u.st }

/-- A block store over the next instruction is what the next step fetches (20_memory.md R74). -/
def Obligations.StoresAreSeenByTheNextFetch : Prop :=
  ∀ (x : Nibble) (s : State), s.halt = false → s.fetchWord = wordXnn 0xF#4 x 0x55#8 → 1 ≤ x.toNat →
    s.i.toNat % 4096 = (s.pc.toNat + 2) % 4096 →
    ∃ t, step s = .next t ∧ t.fetchWord = wordOfBytes (s.readV 0x0#4) (s.readV 0x1#4)

/-- Drawing the same sprite twice at the same place restores the display; when the second draw reports a collision (45_display.md R224, 95_test_vectors.md S2). Rests on the model's own choice: log 16. -/
def Obligations.DrawingTwiceRestoresTheDisplay : Prop :=
  ∀ (x y n : Nibble) (s : State), x ≠ regVF → y ≠ regVF →
    ∃ t u, CompletesTo (.drwVxVyN x y n) s t ∧ CompletesTo (.drwVxVyN x y n) t u ∧ u.fb = s.fb ∧
      (∀ p q, spriteHits s x y n p q → t.pixel p q = !s.pixel p q) ∧
      (u.readV regVF = 0x01#8 ↔ ∃ p q, spriteHits s x y n p q ∧ s.pixel p q = false) ∧
      (u.readV regVF = 0x01#8 → spriteHasSetBit s n) ∧
      (t.readV regVF = 0x00#8 → (u.readV regVF = 0x01#8 ↔ spriteHasSetBit s n))

/-- Decoding an encoded well-formed instruction gives it back, and encoding a decoded word gives the word (30_encoding.md R91 to R95). -/
def Obligations.DecodeAndEncodeAgree : Prop :=
  (∀ (i : Instr) (rest : List Byte), i.wellFormed = true → decode (encodeBytes i ++ rest) = .ok (i, rest)) ∧
  (∀ (w : Word) (i : Instr), decodeWord w = .ok i → i.wellFormed = true ∧ encode i = w)

/-- Words written out from the opcode map decode to the instructions they stand for (30_encoding.md R95, 95_test_vectors.md Part 1 and Part 2). -/
def Obligations.WordsOfTheManualDecode : Prop :=
  decodeWord 0x1ABC#16 = .ok (.jpNnn 0xABC#12) ∧ decodeWord 0x2300#16 = .ok (.callNnn 0x300#12) ∧
  decodeWord 0x00EE#16 = .ok .ret ∧ decodeWord 0x3A42#16 = .ok (.seVxNn 0xA#4 0x42#8) ∧
  decodeWord 0x8236#16 = .ok (.shrVx 0x2#4 0x3#4) ∧ decodeWord 0x71FF#16 = .ok (.addVxNn 0x1#4 0xFF#8) ∧
  decodeWord 0xF21E#16 = .ok (.addIVx 0x2#4) ∧ decodeWord 0xF265#16 = .ok (.ldVxMem 0x2#4) ∧
  decodeWord 0xF218#16 = .ok (.ldStVx 0x2#4) ∧ decodeWord 0xD125#16 = .ok (.drwVxVyN 0x1#4 0x2#4 0x5#4) ∧
  decodeWord 0xE0A1#16 = .ok (.sknpVx 0x0#4) ∧ decodeWord 0xF50A#16 = .ok (.ldVxK 0x5#4) ∧
  decodeWord 0x5001#16 = .error (.unknownOpcode 0x5001#16)

/-- withFetchWord places the word where the very next step fetches it, clears HALT, and changes nothing else (70_reset_and_hazards.md §2, 40_step_cycle.md §2). Rests on the model's own choice: log 9. -/
def Obligations.PlacedWordIsWhatTheStepRuns : Prop :=
  ∀ (s : State) (w : Nat), w < 65536 →
    (s.withFetchWord 16 w).fetchWord.toNat = w ∧ (s.withFetchWord 16 w).halt = false ∧
    (∀ a < 4096, a ≠ s.pc.toNat % 4096 → a ≠ (s.pc.toNat + 1) % 4096 →
      (s.withFetchWord 16 w).readByte a = s.readByte a) ∧
    SameV s (s.withFetchWord 16 w) ∧ (s.withFetchWord 16 w).pc = s.pc ∧ (s.withFetchWord 16 w).i = s.i ∧
    SameStack s (s.withFetchWord 16 w) ∧ SameTimers s (s.withFetchWord 16 w) ∧ SameDisplay s (s.withFetchWord 16 w) ∧
    (s.withFetchWord 16 w).hcause = s.hcause ∧ (s.withFetchWord 16 w).hinfo = s.hinfo ∧
    SamePorts s (s.withFetchWord 16 w) ∧ (s.withFetchWord 16 w).result = s.result ∧
    ∀ i, decodeTableWord 16 w = some i → step (s.withFetchWord 16 w) = finishStep (exec i (s.withFetchWord 16 w))

/-- Loading a program puts ROM byte j at 0x200 + j and changes no other byte (70_reset_and_hazards.md R296). -/
def Obligations.LoadedProgramStandsAt0x200 : Prop :=
  ∀ (s : State) (rom : List Byte), rom.length ≤ 3584 →
    (∀ (j : Nat) (h : j < rom.length), (s.loadProgram rom).readByte (0x200 + j) = rom[j]) ∧
    (∀ a < 4096, (a < 0x200 ∨ 0x200 + rom.length ≤ a) → (s.loadProgram rom).readByte a = s.readByte a) ∧
    (s.loadProgram rom).pc = s.pc ∧ (s.loadProgram rom).result = s.result ∧ OnlyMemAndPc s (s.loadProgram rom)

/-- Where reset and step are requested together, reset wins and no step is performed (70_reset_and_hazards.md R293, 92_eei_decisions.md D1). Rests on the model's own choice: log 5. -/
def Obligations.ResetWinsOverASimultaneousStep : Prop :=
  ∀ s : State,
    (∀ stepToo : Bool, ∃ t, s.request ⟨true, stepToo⟩ = .next t ∧ t.pc = 0x0200#16 ∧ (∀ r, t.readV r = 0x00#8) ∧
      t.i = 0x0000#16 ∧ t.sp.val = 0 ∧ t.dt = 0x00#8 ∧ t.st = 0x00#8 ∧ (∀ x < 64, ∀ y < 32, t.pixel x y = false) ∧
      t.dirty = false ∧ t.halt = false ∧ t.mem = s.mem ∧ t.inputs = s.inputs ∧ t.tick = s.tick) ∧
    s.request ⟨false, true⟩ = step s ∧ s.request ⟨false, false⟩ = .next s
end

