-- ==== Sys2Proof/Laws/State.lean ====
section
/-! SUPPORT. Beside State: for each named update, one lemma per field, true by rfl, so that no later proof unfolds a
record update; then the accessors over the updates that leave their field alone. -/

namespace Sys2Proof.Machine

variable (s : State)

/-! ### State.writeByte -/

@[simp] theorem State.writeByte_v (a : Nat) (b : Byte) : (s.writeByte a b).v = s.v := rfl
@[simp] theorem State.writeByte_pc (a : Nat) (b : Byte) : (s.writeByte a b).pc = s.pc := rfl
@[simp] theorem State.writeByte_i (a : Nat) (b : Byte) : (s.writeByte a b).i = s.i := rfl
@[simp] theorem State.writeByte_stack (a : Nat) (b : Byte) : (s.writeByte a b).stack = s.stack := rfl
@[simp] theorem State.writeByte_sp (a : Nat) (b : Byte) : (s.writeByte a b).sp = s.sp := rfl
@[simp] theorem State.writeByte_dt (a : Nat) (b : Byte) : (s.writeByte a b).dt = s.dt := rfl
@[simp] theorem State.writeByte_st (a : Nat) (b : Byte) : (s.writeByte a b).st = s.st := rfl
@[simp] theorem State.writeByte_mem (a : Nat) (b : Byte) : (s.writeByte a b).mem = s.mem.write (a % Config.memSize) b := rfl
@[simp] theorem State.writeByte_fb (a : Nat) (b : Byte) : (s.writeByte a b).fb = s.fb := rfl
@[simp] theorem State.writeByte_dirty (a : Nat) (b : Byte) : (s.writeByte a b).dirty = s.dirty := rfl
@[simp] theorem State.writeByte_halt (a : Nat) (b : Byte) : (s.writeByte a b).halt = s.halt := rfl
@[simp] theorem State.writeByte_hcause (a : Nat) (b : Byte) : (s.writeByte a b).hcause = s.hcause := rfl
@[simp] theorem State.writeByte_hinfo (a : Nat) (b : Byte) : (s.writeByte a b).hinfo = s.hinfo := rfl
@[simp] theorem State.writeByte_tone (a : Nat) (b : Byte) : (s.writeByte a b).tone = s.tone := rfl
@[simp] theorem State.writeByte_result (a : Nat) (b : Byte) : (s.writeByte a b).result = s.result := rfl
@[simp] theorem State.writeByte_inputs (a : Nat) (b : Byte) : (s.writeByte a b).inputs = s.inputs := rfl
@[simp] theorem State.writeByte_tick (a : Nat) (b : Byte) : (s.writeByte a b).tick = s.tick := rfl

/-! ### State.writeV -/

@[simp] theorem State.writeV_v (r : Nibble) (b : Byte) : (s.writeV r b).v = s.v.set r.toNat b r.isLt := rfl
@[simp] theorem State.writeV_pc (r : Nibble) (b : Byte) : (s.writeV r b).pc = s.pc := rfl
@[simp] theorem State.writeV_i (r : Nibble) (b : Byte) : (s.writeV r b).i = s.i := rfl
@[simp] theorem State.writeV_stack (r : Nibble) (b : Byte) : (s.writeV r b).stack = s.stack := rfl
@[simp] theorem State.writeV_sp (r : Nibble) (b : Byte) : (s.writeV r b).sp = s.sp := rfl
@[simp] theorem State.writeV_dt (r : Nibble) (b : Byte) : (s.writeV r b).dt = s.dt := rfl
@[simp] theorem State.writeV_st (r : Nibble) (b : Byte) : (s.writeV r b).st = s.st := rfl
@[simp] theorem State.writeV_mem (r : Nibble) (b : Byte) : (s.writeV r b).mem = s.mem := rfl
@[simp] theorem State.writeV_fb (r : Nibble) (b : Byte) : (s.writeV r b).fb = s.fb := rfl
@[simp] theorem State.writeV_dirty (r : Nibble) (b : Byte) : (s.writeV r b).dirty = s.dirty := rfl
@[simp] theorem State.writeV_halt (r : Nibble) (b : Byte) : (s.writeV r b).halt = s.halt := rfl
@[simp] theorem State.writeV_hcause (r : Nibble) (b : Byte) : (s.writeV r b).hcause = s.hcause := rfl
@[simp] theorem State.writeV_hinfo (r : Nibble) (b : Byte) : (s.writeV r b).hinfo = s.hinfo := rfl
@[simp] theorem State.writeV_tone (r : Nibble) (b : Byte) : (s.writeV r b).tone = s.tone := rfl
@[simp] theorem State.writeV_result (r : Nibble) (b : Byte) : (s.writeV r b).result = s.result := rfl
@[simp] theorem State.writeV_inputs (r : Nibble) (b : Byte) : (s.writeV r b).inputs = s.inputs := rfl
@[simp] theorem State.writeV_tick (r : Nibble) (b : Byte) : (s.writeV r b).tick = s.tick := rfl

/-! ### State.writeFlag -/

@[simp] theorem State.writeFlag_v (f : Byte) : (s.writeFlag f).v = s.v.set 15 f := rfl
@[simp] theorem State.writeFlag_pc (f : Byte) : (s.writeFlag f).pc = s.pc := rfl
@[simp] theorem State.writeFlag_i (f : Byte) : (s.writeFlag f).i = s.i := rfl
@[simp] theorem State.writeFlag_stack (f : Byte) : (s.writeFlag f).stack = s.stack := rfl
@[simp] theorem State.writeFlag_sp (f : Byte) : (s.writeFlag f).sp = s.sp := rfl
@[simp] theorem State.writeFlag_dt (f : Byte) : (s.writeFlag f).dt = s.dt := rfl
@[simp] theorem State.writeFlag_st (f : Byte) : (s.writeFlag f).st = s.st := rfl
@[simp] theorem State.writeFlag_mem (f : Byte) : (s.writeFlag f).mem = s.mem := rfl
@[simp] theorem State.writeFlag_fb (f : Byte) : (s.writeFlag f).fb = s.fb := rfl
@[simp] theorem State.writeFlag_dirty (f : Byte) : (s.writeFlag f).dirty = s.dirty := rfl
@[simp] theorem State.writeFlag_halt (f : Byte) : (s.writeFlag f).halt = s.halt := rfl
@[simp] theorem State.writeFlag_hcause (f : Byte) : (s.writeFlag f).hcause = s.hcause := rfl
@[simp] theorem State.writeFlag_hinfo (f : Byte) : (s.writeFlag f).hinfo = s.hinfo := rfl
@[simp] theorem State.writeFlag_tone (f : Byte) : (s.writeFlag f).tone = s.tone := rfl
@[simp] theorem State.writeFlag_result (f : Byte) : (s.writeFlag f).result = s.result := rfl
@[simp] theorem State.writeFlag_inputs (f : Byte) : (s.writeFlag f).inputs = s.inputs := rfl
@[simp] theorem State.writeFlag_tick (f : Byte) : (s.writeFlag f).tick = s.tick := rfl

/-! ### State.setI -/

@[simp] theorem State.setI_v (a : Word) : (s.setI a).v = s.v := rfl
@[simp] theorem State.setI_pc (a : Word) : (s.setI a).pc = s.pc := rfl
@[simp] theorem State.setI_i (a : Word) : (s.setI a).i = a := rfl
@[simp] theorem State.setI_stack (a : Word) : (s.setI a).stack = s.stack := rfl
@[simp] theorem State.setI_sp (a : Word) : (s.setI a).sp = s.sp := rfl
@[simp] theorem State.setI_dt (a : Word) : (s.setI a).dt = s.dt := rfl
@[simp] theorem State.setI_st (a : Word) : (s.setI a).st = s.st := rfl
@[simp] theorem State.setI_mem (a : Word) : (s.setI a).mem = s.mem := rfl
@[simp] theorem State.setI_fb (a : Word) : (s.setI a).fb = s.fb := rfl
@[simp] theorem State.setI_dirty (a : Word) : (s.setI a).dirty = s.dirty := rfl
@[simp] theorem State.setI_halt (a : Word) : (s.setI a).halt = s.halt := rfl
@[simp] theorem State.setI_hcause (a : Word) : (s.setI a).hcause = s.hcause := rfl
@[simp] theorem State.setI_hinfo (a : Word) : (s.setI a).hinfo = s.hinfo := rfl
@[simp] theorem State.setI_tone (a : Word) : (s.setI a).tone = s.tone := rfl
@[simp] theorem State.setI_result (a : Word) : (s.setI a).result = s.result := rfl
@[simp] theorem State.setI_inputs (a : Word) : (s.setI a).inputs = s.inputs := rfl
@[simp] theorem State.setI_tick (a : Word) : (s.setI a).tick = s.tick := rfl

/-! ### State.setPc -/

@[simp] theorem State.setPc_v (a : Word) : (s.setPc a).v = s.v := rfl
@[simp] theorem State.setPc_pc (a : Word) : (s.setPc a).pc = a := rfl
@[simp] theorem State.setPc_i (a : Word) : (s.setPc a).i = s.i := rfl
@[simp] theorem State.setPc_stack (a : Word) : (s.setPc a).stack = s.stack := rfl
@[simp] theorem State.setPc_sp (a : Word) : (s.setPc a).sp = s.sp := rfl
@[simp] theorem State.setPc_dt (a : Word) : (s.setPc a).dt = s.dt := rfl
@[simp] theorem State.setPc_st (a : Word) : (s.setPc a).st = s.st := rfl
@[simp] theorem State.setPc_mem (a : Word) : (s.setPc a).mem = s.mem := rfl
@[simp] theorem State.setPc_fb (a : Word) : (s.setPc a).fb = s.fb := rfl
@[simp] theorem State.setPc_dirty (a : Word) : (s.setPc a).dirty = s.dirty := rfl
@[simp] theorem State.setPc_halt (a : Word) : (s.setPc a).halt = s.halt := rfl
@[simp] theorem State.setPc_hcause (a : Word) : (s.setPc a).hcause = s.hcause := rfl
@[simp] theorem State.setPc_hinfo (a : Word) : (s.setPc a).hinfo = s.hinfo := rfl
@[simp] theorem State.setPc_tone (a : Word) : (s.setPc a).tone = s.tone := rfl
@[simp] theorem State.setPc_result (a : Word) : (s.setPc a).result = s.result := rfl
@[simp] theorem State.setPc_inputs (a : Word) : (s.setPc a).inputs = s.inputs := rfl
@[simp] theorem State.setPc_tick (a : Word) : (s.setPc a).tick = s.tick := rfl

/-! ### State.setDt -/

@[simp] theorem State.setDt_v (b : Byte) : (s.setDt b).v = s.v := rfl
@[simp] theorem State.setDt_pc (b : Byte) : (s.setDt b).pc = s.pc := rfl
@[simp] theorem State.setDt_i (b : Byte) : (s.setDt b).i = s.i := rfl
@[simp] theorem State.setDt_stack (b : Byte) : (s.setDt b).stack = s.stack := rfl
@[simp] theorem State.setDt_sp (b : Byte) : (s.setDt b).sp = s.sp := rfl
@[simp] theorem State.setDt_dt (b : Byte) : (s.setDt b).dt = b := rfl
@[simp] theorem State.setDt_st (b : Byte) : (s.setDt b).st = s.st := rfl
@[simp] theorem State.setDt_mem (b : Byte) : (s.setDt b).mem = s.mem := rfl
@[simp] theorem State.setDt_fb (b : Byte) : (s.setDt b).fb = s.fb := rfl
@[simp] theorem State.setDt_dirty (b : Byte) : (s.setDt b).dirty = s.dirty := rfl
@[simp] theorem State.setDt_halt (b : Byte) : (s.setDt b).halt = s.halt := rfl
@[simp] theorem State.setDt_hcause (b : Byte) : (s.setDt b).hcause = s.hcause := rfl
@[simp] theorem State.setDt_hinfo (b : Byte) : (s.setDt b).hinfo = s.hinfo := rfl
@[simp] theorem State.setDt_tone (b : Byte) : (s.setDt b).tone = s.tone := rfl
@[simp] theorem State.setDt_result (b : Byte) : (s.setDt b).result = s.result := rfl
@[simp] theorem State.setDt_inputs (b : Byte) : (s.setDt b).inputs = s.inputs := rfl
@[simp] theorem State.setDt_tick (b : Byte) : (s.setDt b).tick = s.tick := rfl

/-! ### State.setSt -/

@[simp] theorem State.setSt_v (b : Byte) : (s.setSt b).v = s.v := rfl
@[simp] theorem State.setSt_pc (b : Byte) : (s.setSt b).pc = s.pc := rfl
@[simp] theorem State.setSt_i (b : Byte) : (s.setSt b).i = s.i := rfl
@[simp] theorem State.setSt_stack (b : Byte) : (s.setSt b).stack = s.stack := rfl
@[simp] theorem State.setSt_sp (b : Byte) : (s.setSt b).sp = s.sp := rfl
@[simp] theorem State.setSt_dt (b : Byte) : (s.setSt b).dt = s.dt := rfl
@[simp] theorem State.setSt_st (b : Byte) : (s.setSt b).st = b := rfl
@[simp] theorem State.setSt_mem (b : Byte) : (s.setSt b).mem = s.mem := rfl
@[simp] theorem State.setSt_fb (b : Byte) : (s.setSt b).fb = s.fb := rfl
@[simp] theorem State.setSt_dirty (b : Byte) : (s.setSt b).dirty = s.dirty := rfl
@[simp] theorem State.setSt_halt (b : Byte) : (s.setSt b).halt = s.halt := rfl
@[simp] theorem State.setSt_hcause (b : Byte) : (s.setSt b).hcause = s.hcause := rfl
@[simp] theorem State.setSt_hinfo (b : Byte) : (s.setSt b).hinfo = s.hinfo := rfl
@[simp] theorem State.setSt_tone (b : Byte) : (s.setSt b).tone = s.tone := rfl
@[simp] theorem State.setSt_result (b : Byte) : (s.setSt b).result = s.result := rfl
@[simp] theorem State.setSt_inputs (b : Byte) : (s.setSt b).inputs = s.inputs := rfl
@[simp] theorem State.setSt_tick (b : Byte) : (s.setSt b).tick = s.tick := rfl

/-! ### State.setResult -/

@[simp] theorem State.setResult_v (r : StepResult) : (s.setResult r).v = s.v := rfl
@[simp] theorem State.setResult_pc (r : StepResult) : (s.setResult r).pc = s.pc := rfl
@[simp] theorem State.setResult_i (r : StepResult) : (s.setResult r).i = s.i := rfl
@[simp] theorem State.setResult_stack (r : StepResult) : (s.setResult r).stack = s.stack := rfl
@[simp] theorem State.setResult_sp (r : StepResult) : (s.setResult r).sp = s.sp := rfl
@[simp] theorem State.setResult_dt (r : StepResult) : (s.setResult r).dt = s.dt := rfl
@[simp] theorem State.setResult_st (r : StepResult) : (s.setResult r).st = s.st := rfl
@[simp] theorem State.setResult_mem (r : StepResult) : (s.setResult r).mem = s.mem := rfl
@[simp] theorem State.setResult_fb (r : StepResult) : (s.setResult r).fb = s.fb := rfl
@[simp] theorem State.setResult_dirty (r : StepResult) : (s.setResult r).dirty = s.dirty := rfl
@[simp] theorem State.setResult_halt (r : StepResult) : (s.setResult r).halt = s.halt := rfl
@[simp] theorem State.setResult_hcause (r : StepResult) : (s.setResult r).hcause = s.hcause := rfl
@[simp] theorem State.setResult_hinfo (r : StepResult) : (s.setResult r).hinfo = s.hinfo := rfl
@[simp] theorem State.setResult_tone (r : StepResult) : (s.setResult r).tone = s.tone := rfl
@[simp] theorem State.setResult_result (r : StepResult) : (s.setResult r).result = some r := rfl
@[simp] theorem State.setResult_inputs (r : StepResult) : (s.setResult r).inputs = s.inputs := rfl
@[simp] theorem State.setResult_tick (r : StepResult) : (s.setResult r).tick = s.tick := rfl

/-! ### State.advancePc -/

@[simp] theorem State.advancePc_v : s.advancePc.v = s.v := rfl
@[simp] theorem State.advancePc_pc : s.advancePc.pc = s.pc + 2#16 := rfl
@[simp] theorem State.advancePc_i : s.advancePc.i = s.i := rfl
@[simp] theorem State.advancePc_stack : s.advancePc.stack = s.stack := rfl
@[simp] theorem State.advancePc_sp : s.advancePc.sp = s.sp := rfl
@[simp] theorem State.advancePc_dt : s.advancePc.dt = s.dt := rfl
@[simp] theorem State.advancePc_st : s.advancePc.st = s.st := rfl
@[simp] theorem State.advancePc_mem : s.advancePc.mem = s.mem := rfl
@[simp] theorem State.advancePc_fb : s.advancePc.fb = s.fb := rfl
@[simp] theorem State.advancePc_dirty : s.advancePc.dirty = s.dirty := rfl
@[simp] theorem State.advancePc_halt : s.advancePc.halt = s.halt := rfl
@[simp] theorem State.advancePc_hcause : s.advancePc.hcause = s.hcause := rfl
@[simp] theorem State.advancePc_hinfo : s.advancePc.hinfo = s.hinfo := rfl
@[simp] theorem State.advancePc_tone : s.advancePc.tone = s.tone := rfl
@[simp] theorem State.advancePc_result : s.advancePc.result = s.result := rfl
@[simp] theorem State.advancePc_inputs : s.advancePc.inputs = s.inputs := rfl
@[simp] theorem State.advancePc_tick : s.advancePc.tick = s.tick := rfl

/-! ### State.setDisplay -/

@[simp] theorem State.setDisplay_v (d : Display) : (s.setDisplay d).v = s.v := rfl
@[simp] theorem State.setDisplay_pc (d : Display) : (s.setDisplay d).pc = s.pc := rfl
@[simp] theorem State.setDisplay_i (d : Display) : (s.setDisplay d).i = s.i := rfl
@[simp] theorem State.setDisplay_stack (d : Display) : (s.setDisplay d).stack = s.stack := rfl
@[simp] theorem State.setDisplay_sp (d : Display) : (s.setDisplay d).sp = s.sp := rfl
@[simp] theorem State.setDisplay_dt (d : Display) : (s.setDisplay d).dt = s.dt := rfl
@[simp] theorem State.setDisplay_st (d : Display) : (s.setDisplay d).st = s.st := rfl
@[simp] theorem State.setDisplay_mem (d : Display) : (s.setDisplay d).mem = s.mem := rfl
@[simp] theorem State.setDisplay_fb (d : Display) : (s.setDisplay d).fb = d := rfl
@[simp] theorem State.setDisplay_dirty (d : Display) : (s.setDisplay d).dirty = true := rfl
@[simp] theorem State.setDisplay_halt (d : Display) : (s.setDisplay d).halt = s.halt := rfl
@[simp] theorem State.setDisplay_hcause (d : Display) : (s.setDisplay d).hcause = s.hcause := rfl
@[simp] theorem State.setDisplay_hinfo (d : Display) : (s.setDisplay d).hinfo = s.hinfo := rfl
@[simp] theorem State.setDisplay_tone (d : Display) : (s.setDisplay d).tone = s.tone := rfl
@[simp] theorem State.setDisplay_result (d : Display) : (s.setDisplay d).result = s.result := rfl
@[simp] theorem State.setDisplay_inputs (d : Display) : (s.setDisplay d).inputs = s.inputs := rfl
@[simp] theorem State.setDisplay_tick (d : Display) : (s.setDisplay d).tick = s.tick := rfl

/-! ### State.tickTimers -/

@[simp] theorem State.tickTimers_v : s.tickTimers.v = s.v := rfl
@[simp] theorem State.tickTimers_pc : s.tickTimers.pc = s.pc := rfl
@[simp] theorem State.tickTimers_i : s.tickTimers.i = s.i := rfl
@[simp] theorem State.tickTimers_stack : s.tickTimers.stack = s.stack := rfl
@[simp] theorem State.tickTimers_sp : s.tickTimers.sp = s.sp := rfl
@[simp] theorem State.tickTimers_dt : s.tickTimers.dt = tickDown s.dt := rfl
@[simp] theorem State.tickTimers_st : s.tickTimers.st = tickDown s.st := rfl
@[simp] theorem State.tickTimers_mem : s.tickTimers.mem = s.mem := rfl
@[simp] theorem State.tickTimers_fb : s.tickTimers.fb = s.fb := rfl
@[simp] theorem State.tickTimers_dirty : s.tickTimers.dirty = s.dirty := rfl
@[simp] theorem State.tickTimers_halt : s.tickTimers.halt = s.halt := rfl
@[simp] theorem State.tickTimers_hcause : s.tickTimers.hcause = s.hcause := rfl
@[simp] theorem State.tickTimers_hinfo : s.tickTimers.hinfo = s.hinfo := rfl
@[simp] theorem State.tickTimers_tone : s.tickTimers.tone = decide (s.st = 1#8) := rfl
@[simp] theorem State.tickTimers_result : s.tickTimers.result = s.result := rfl
@[simp] theorem State.tickTimers_inputs : s.tickTimers.inputs = s.inputs := rfl
@[simp] theorem State.tickTimers_tick : s.tickTimers.tick = s.tick := rfl

/-! ### State.consumeInputs -/

@[simp] theorem State.consumeInputs_v : s.consumeInputs.v = s.v := rfl
@[simp] theorem State.consumeInputs_pc : s.consumeInputs.pc = s.pc := rfl
@[simp] theorem State.consumeInputs_i : s.consumeInputs.i = s.i := rfl
@[simp] theorem State.consumeInputs_stack : s.consumeInputs.stack = s.stack := rfl
@[simp] theorem State.consumeInputs_sp : s.consumeInputs.sp = s.sp := rfl
@[simp] theorem State.consumeInputs_dt : s.consumeInputs.dt = s.dt := rfl
@[simp] theorem State.consumeInputs_st : s.consumeInputs.st = s.st := rfl
@[simp] theorem State.consumeInputs_mem : s.consumeInputs.mem = s.mem := rfl
@[simp] theorem State.consumeInputs_fb : s.consumeInputs.fb = s.fb := rfl
@[simp] theorem State.consumeInputs_dirty : s.consumeInputs.dirty = s.dirty := rfl
@[simp] theorem State.consumeInputs_halt : s.consumeInputs.halt = s.halt := rfl
@[simp] theorem State.consumeInputs_hcause : s.consumeInputs.hcause = s.hcause := rfl
@[simp] theorem State.consumeInputs_hinfo : s.consumeInputs.hinfo = s.hinfo := rfl
@[simp] theorem State.consumeInputs_tone : s.consumeInputs.tone = s.tone := rfl
@[simp] theorem State.consumeInputs_result : s.consumeInputs.result = s.result := rfl
@[simp] theorem State.consumeInputs_inputs : s.consumeInputs.inputs = s.inputs.tail := rfl
@[simp] theorem State.consumeInputs_tick : s.consumeInputs.tick = s.tick + 1 := rfl

/-! ### State.raiseFatal -/

@[simp] theorem State.raiseFatal_v (c : Cause) (w : Word) : (s.raiseFatal c w).v = s.v := rfl
@[simp] theorem State.raiseFatal_pc (c : Cause) (w : Word) : (s.raiseFatal c w).pc = s.pc := rfl
@[simp] theorem State.raiseFatal_i (c : Cause) (w : Word) : (s.raiseFatal c w).i = s.i := rfl
@[simp] theorem State.raiseFatal_stack (c : Cause) (w : Word) : (s.raiseFatal c w).stack = s.stack := rfl
@[simp] theorem State.raiseFatal_sp (c : Cause) (w : Word) : (s.raiseFatal c w).sp = s.sp := rfl
@[simp] theorem State.raiseFatal_dt (c : Cause) (w : Word) : (s.raiseFatal c w).dt = s.dt := rfl
@[simp] theorem State.raiseFatal_st (c : Cause) (w : Word) : (s.raiseFatal c w).st = s.st := rfl
@[simp] theorem State.raiseFatal_mem (c : Cause) (w : Word) : (s.raiseFatal c w).mem = s.mem := rfl
@[simp] theorem State.raiseFatal_fb (c : Cause) (w : Word) : (s.raiseFatal c w).fb = s.fb := rfl
@[simp] theorem State.raiseFatal_dirty (c : Cause) (w : Word) : (s.raiseFatal c w).dirty = s.dirty := rfl
@[simp] theorem State.raiseFatal_halt (c : Cause) (w : Word) : (s.raiseFatal c w).halt = true := rfl
@[simp] theorem State.raiseFatal_hcause (c : Cause) (w : Word) : (s.raiseFatal c w).hcause = c := rfl
@[simp] theorem State.raiseFatal_hinfo (c : Cause) (w : Word) : (s.raiseFatal c w).hinfo = w := rfl
@[simp] theorem State.raiseFatal_tone (c : Cause) (w : Word) : (s.raiseFatal c w).tone = false := rfl
@[simp] theorem State.raiseFatal_result (c : Cause) (w : Word) : (s.raiseFatal c w).result = some (.fatal c w) := rfl
@[simp] theorem State.raiseFatal_inputs (c : Cause) (w : Word) : (s.raiseFatal c w).inputs = s.inputs := rfl
@[simp] theorem State.raiseFatal_tick (c : Cause) (w : Word) : (s.raiseFatal c w).tick = s.tick := rfl

/-! ### State.stepHalted -/

@[simp] theorem State.stepHalted_v : s.stepHalted.v = s.v := rfl
@[simp] theorem State.stepHalted_pc : s.stepHalted.pc = s.pc := rfl
@[simp] theorem State.stepHalted_i : s.stepHalted.i = s.i := rfl
@[simp] theorem State.stepHalted_stack : s.stepHalted.stack = s.stack := rfl
@[simp] theorem State.stepHalted_sp : s.stepHalted.sp = s.sp := rfl
@[simp] theorem State.stepHalted_dt : s.stepHalted.dt = s.dt := rfl
@[simp] theorem State.stepHalted_st : s.stepHalted.st = s.st := rfl
@[simp] theorem State.stepHalted_mem : s.stepHalted.mem = s.mem := rfl
@[simp] theorem State.stepHalted_fb : s.stepHalted.fb = s.fb := rfl
@[simp] theorem State.stepHalted_dirty : s.stepHalted.dirty = s.dirty := rfl
@[simp] theorem State.stepHalted_halt : s.stepHalted.halt = s.halt := rfl
@[simp] theorem State.stepHalted_hcause : s.stepHalted.hcause = s.hcause := rfl
@[simp] theorem State.stepHalted_hinfo : s.stepHalted.hinfo = s.hinfo := rfl
@[simp] theorem State.stepHalted_tone : s.stepHalted.tone = false := rfl
@[simp] theorem State.stepHalted_result : s.stepHalted.result = some (.fatal s.hcause s.hinfo) := rfl
@[simp] theorem State.stepHalted_inputs : s.stepHalted.inputs = s.inputs := rfl
@[simp] theorem State.stepHalted_tick : s.stepHalted.tick = s.tick := rfl

/-! ### Accessors over updates of other fields -/

@[simp] theorem State.readV_writeByte (a : Nat) (b : Byte) (q : Nibble) : (s.writeByte a b).readV q = s.readV q := rfl
@[simp] theorem State.readV_setI (a : Word) (q : Nibble) : (s.setI a).readV q = s.readV q := rfl
@[simp] theorem State.readV_setPc (a : Word) (q : Nibble) : (s.setPc a).readV q = s.readV q := rfl
@[simp] theorem State.readV_setDt (b : Byte) (q : Nibble) : (s.setDt b).readV q = s.readV q := rfl
@[simp] theorem State.readV_setSt (b : Byte) (q : Nibble) : (s.setSt b).readV q = s.readV q := rfl
@[simp] theorem State.readV_setResult (r : StepResult) (q : Nibble) : (s.setResult r).readV q = s.readV q := rfl
@[simp] theorem State.readV_advancePc (q : Nibble) : s.advancePc.readV q = s.readV q := rfl
@[simp] theorem State.readV_setDisplay (d : Display) (q : Nibble) : (s.setDisplay d).readV q = s.readV q := rfl
@[simp] theorem State.readV_tickTimers (q : Nibble) : s.tickTimers.readV q = s.readV q := rfl
@[simp] theorem State.readV_consumeInputs (q : Nibble) : s.consumeInputs.readV q = s.readV q := rfl
@[simp] theorem State.readV_raiseFatal (c : Cause) (w : Word) (q : Nibble) : (s.raiseFatal c w).readV q = s.readV q := rfl
@[simp] theorem State.readV_stepHalted (q : Nibble) : s.stepHalted.readV q = s.readV q := rfl

@[simp] theorem State.readByte_writeV (r : Nibble) (b : Byte) (j : Nat) : (s.writeV r b).readByte j = s.readByte j := rfl
@[simp] theorem State.readByte_writeFlag (f : Byte) (j : Nat) : (s.writeFlag f).readByte j = s.readByte j := rfl
@[simp] theorem State.readByte_setI (a : Word) (j : Nat) : (s.setI a).readByte j = s.readByte j := rfl
@[simp] theorem State.readByte_setPc (a : Word) (j : Nat) : (s.setPc a).readByte j = s.readByte j := rfl
@[simp] theorem State.readByte_setDt (b : Byte) (j : Nat) : (s.setDt b).readByte j = s.readByte j := rfl
@[simp] theorem State.readByte_setSt (b : Byte) (j : Nat) : (s.setSt b).readByte j = s.readByte j := rfl
@[simp] theorem State.readByte_setResult (r : StepResult) (j : Nat) : (s.setResult r).readByte j = s.readByte j := rfl
@[simp] theorem State.readByte_advancePc (j : Nat) : s.advancePc.readByte j = s.readByte j := rfl
@[simp] theorem State.readByte_setDisplay (d : Display) (j : Nat) : (s.setDisplay d).readByte j = s.readByte j := rfl
@[simp] theorem State.readByte_tickTimers (j : Nat) : s.tickTimers.readByte j = s.readByte j := rfl
@[simp] theorem State.readByte_consumeInputs (j : Nat) : s.consumeInputs.readByte j = s.readByte j := rfl
@[simp] theorem State.readByte_raiseFatal (c : Cause) (w : Word) (j : Nat) : (s.raiseFatal c w).readByte j = s.readByte j := rfl
@[simp] theorem State.readByte_stepHalted (j : Nat) : s.stepHalted.readByte j = s.readByte j := rfl

@[simp] theorem State.stackAt_writeByte (a : Nat) (b : Byte) (j : Nat) : (s.writeByte a b).stackAt j = s.stackAt j := rfl
@[simp] theorem State.stackAt_writeV (r : Nibble) (b : Byte) (j : Nat) : (s.writeV r b).stackAt j = s.stackAt j := rfl
@[simp] theorem State.stackAt_writeFlag (f : Byte) (j : Nat) : (s.writeFlag f).stackAt j = s.stackAt j := rfl
@[simp] theorem State.stackAt_setI (a : Word) (j : Nat) : (s.setI a).stackAt j = s.stackAt j := rfl
@[simp] theorem State.stackAt_setPc (a : Word) (j : Nat) : (s.setPc a).stackAt j = s.stackAt j := rfl
@[simp] theorem State.stackAt_setDt (b : Byte) (j : Nat) : (s.setDt b).stackAt j = s.stackAt j := rfl
@[simp] theorem State.stackAt_setSt (b : Byte) (j : Nat) : (s.setSt b).stackAt j = s.stackAt j := rfl
@[simp] theorem State.stackAt_setResult (r : StepResult) (j : Nat) : (s.setResult r).stackAt j = s.stackAt j := rfl
@[simp] theorem State.stackAt_advancePc (j : Nat) : s.advancePc.stackAt j = s.stackAt j := rfl
@[simp] theorem State.stackAt_setDisplay (d : Display) (j : Nat) : (s.setDisplay d).stackAt j = s.stackAt j := rfl
@[simp] theorem State.stackAt_tickTimers (j : Nat) : s.tickTimers.stackAt j = s.stackAt j := rfl
@[simp] theorem State.stackAt_consumeInputs (j : Nat) : s.consumeInputs.stackAt j = s.stackAt j := rfl
@[simp] theorem State.stackAt_raiseFatal (c : Cause) (w : Word) (j : Nat) : (s.raiseFatal c w).stackAt j = s.stackAt j := rfl
@[simp] theorem State.stackAt_stepHalted (j : Nat) : s.stepHalted.stackAt j = s.stackAt j := rfl

@[simp] theorem State.pixel_writeByte (a : Nat) (b : Byte) (p q : Nat) : (s.writeByte a b).pixel p q = s.pixel p q := rfl
@[simp] theorem State.pixel_writeV (r : Nibble) (b : Byte) (p q : Nat) : (s.writeV r b).pixel p q = s.pixel p q := rfl
@[simp] theorem State.pixel_writeFlag (f : Byte) (p q : Nat) : (s.writeFlag f).pixel p q = s.pixel p q := rfl
@[simp] theorem State.pixel_setI (a : Word) (p q : Nat) : (s.setI a).pixel p q = s.pixel p q := rfl
@[simp] theorem State.pixel_setPc (a : Word) (p q : Nat) : (s.setPc a).pixel p q = s.pixel p q := rfl
@[simp] theorem State.pixel_setDt (b : Byte) (p q : Nat) : (s.setDt b).pixel p q = s.pixel p q := rfl
@[simp] theorem State.pixel_setSt (b : Byte) (p q : Nat) : (s.setSt b).pixel p q = s.pixel p q := rfl
@[simp] theorem State.pixel_setResult (r : StepResult) (p q : Nat) : (s.setResult r).pixel p q = s.pixel p q := rfl
@[simp] theorem State.pixel_advancePc (p q : Nat) : s.advancePc.pixel p q = s.pixel p q := rfl
@[simp] theorem State.pixel_tickTimers (p q : Nat) : s.tickTimers.pixel p q = s.pixel p q := rfl
@[simp] theorem State.pixel_consumeInputs (p q : Nat) : s.consumeInputs.pixel p q = s.pixel p q := rfl
@[simp] theorem State.pixel_raiseFatal (c : Cause) (w : Word) (p q : Nat) : (s.raiseFatal c w).pixel p q = s.pixel p q := rfl
@[simp] theorem State.pixel_stepHalted (p q : Nat) : s.stepHalted.pixel p q = s.pixel p q := rfl

@[simp] theorem State.ea_writeByte (a : Nat) (b : Byte) (j : Nat) : (s.writeByte a b).ea j = s.ea j := rfl
@[simp] theorem State.ea_writeV (r : Nibble) (b : Byte) (j : Nat) : (s.writeV r b).ea j = s.ea j := rfl
@[simp] theorem State.ea_writeFlag (f : Byte) (j : Nat) : (s.writeFlag f).ea j = s.ea j := rfl
@[simp] theorem State.ea_setPc (a : Word) (j : Nat) : (s.setPc a).ea j = s.ea j := rfl
@[simp] theorem State.ea_setDt (b : Byte) (j : Nat) : (s.setDt b).ea j = s.ea j := rfl
@[simp] theorem State.ea_setSt (b : Byte) (j : Nat) : (s.setSt b).ea j = s.ea j := rfl
@[simp] theorem State.ea_setResult (r : StepResult) (j : Nat) : (s.setResult r).ea j = s.ea j := rfl
@[simp] theorem State.ea_advancePc (j : Nat) : s.advancePc.ea j = s.ea j := rfl
@[simp] theorem State.ea_setDisplay (d : Display) (j : Nat) : (s.setDisplay d).ea j = s.ea j := rfl
@[simp] theorem State.ea_tickTimers (j : Nat) : s.tickTimers.ea j = s.ea j := rfl
@[simp] theorem State.ea_consumeInputs (j : Nat) : s.consumeInputs.ea j = s.ea j := rfl
@[simp] theorem State.ea_raiseFatal (c : Cause) (w : Word) (j : Nat) : (s.raiseFatal c w).ea j = s.ea j := rfl
@[simp] theorem State.ea_stepHalted (j : Nat) : s.stepHalted.ea j = s.ea j := rfl

@[simp] theorem State.keys_writeByte (a : Nat) (b : Byte) : (s.writeByte a b).keys = s.keys := rfl
@[simp] theorem State.keys_writeV (r : Nibble) (b : Byte) : (s.writeV r b).keys = s.keys := rfl
@[simp] theorem State.keys_writeFlag (f : Byte) : (s.writeFlag f).keys = s.keys := rfl
@[simp] theorem State.keys_setI (a : Word) : (s.setI a).keys = s.keys := rfl
@[simp] theorem State.keys_setPc (a : Word) : (s.setPc a).keys = s.keys := rfl
@[simp] theorem State.keys_setDt (b : Byte) : (s.setDt b).keys = s.keys := rfl
@[simp] theorem State.keys_setSt (b : Byte) : (s.setSt b).keys = s.keys := rfl
@[simp] theorem State.keys_setResult (r : StepResult) : (s.setResult r).keys = s.keys := rfl
@[simp] theorem State.keys_advancePc : s.advancePc.keys = s.keys := rfl
@[simp] theorem State.keys_setDisplay (d : Display) : (s.setDisplay d).keys = s.keys := rfl
@[simp] theorem State.keys_tickTimers : s.tickTimers.keys = s.keys := rfl
@[simp] theorem State.keys_raiseFatal (c : Cause) (w : Word) : (s.raiseFatal c w).keys = s.keys := rfl
@[simp] theorem State.keys_stepHalted : s.stepHalted.keys = s.keys := rfl

@[simp] theorem State.rnd_writeByte (a : Nat) (b : Byte) : (s.writeByte a b).rnd = s.rnd := rfl
@[simp] theorem State.rnd_writeV (r : Nibble) (b : Byte) : (s.writeV r b).rnd = s.rnd := rfl
@[simp] theorem State.rnd_writeFlag (f : Byte) : (s.writeFlag f).rnd = s.rnd := rfl
@[simp] theorem State.rnd_setI (a : Word) : (s.setI a).rnd = s.rnd := rfl
@[simp] theorem State.rnd_setPc (a : Word) : (s.setPc a).rnd = s.rnd := rfl
@[simp] theorem State.rnd_setDt (b : Byte) : (s.setDt b).rnd = s.rnd := rfl
@[simp] theorem State.rnd_setSt (b : Byte) : (s.setSt b).rnd = s.rnd := rfl
@[simp] theorem State.rnd_setResult (r : StepResult) : (s.setResult r).rnd = s.rnd := rfl
@[simp] theorem State.rnd_advancePc : s.advancePc.rnd = s.rnd := rfl
@[simp] theorem State.rnd_setDisplay (d : Display) : (s.setDisplay d).rnd = s.rnd := rfl
@[simp] theorem State.rnd_tickTimers : s.tickTimers.rnd = s.rnd := rfl
@[simp] theorem State.rnd_raiseFatal (c : Cause) (w : Word) : (s.raiseFatal c w).rnd = s.rnd := rfl
@[simp] theorem State.rnd_stepHalted : s.stepHalted.rnd = s.rnd := rfl

end Sys2Proof.Machine
end

