-- ==== Sys2Proof/Laws/Memory.lean ====
section
/-! SUPPORT. Memory as data: what a read gives after a write, and that the operations keep the canonical form. The
read laws hold of every list, canonical or not. -/

namespace Sys2Proof.Machine

theorem Memory.lookup_erase (m : Memory) (a b : Nat) :
    (m.erase a).lookup b = if b = a then none else m.lookup b := by
  induction m with
  | nil => simp [Memory.erase, Memory.lookup]
  | cons c m ih =>
    obtain ⟨k, v⟩ := c
    simp only [Memory.erase] at ih ⊢
    by_cases hk : k = a
    · subst hk
      simp only [List.filter_cons, bne_self_eq_false, Bool.false_eq_true, if_false, ih, Memory.lookup]
      split <;> simp_all [eq_comm]
    · simp only [List.filter_cons, bne_iff_ne, ne_eq, hk, not_false_eq_true, if_true, Memory.lookup, ih]
      split <;> simp_all

theorem Memory.erase_has_no_entry (m : Memory) (a : Nat) : ∀ c ∈ m.erase a, c.1 ≠ a := by
  intro c hc
  simpa using (List.mem_filter.mp hc).2

theorem Memory.lookup_insert (m : Memory) (a b : Nat) (v : Byte) (h : ∀ c ∈ m, c.1 ≠ a) :
    (m.insert a v).lookup b = if b = a then some v else m.lookup b := by
  induction m with
  | nil => simp [Memory.insert, Memory.lookup, eq_comm]
  | cons c m ih =>
    obtain ⟨k, w⟩ := c
    have hk : k ≠ a := h (k, w) (by simp)
    simp only [Memory.insert]
    split
    · simp [Memory.lookup, eq_comm]
    · simp only [Memory.lookup, ih (fun c hc => h c (by simp [hc]))]
      split <;> simp_all

/-- What is listed after a write: the value written there, every other address as before. -/
@[simp] theorem Memory.lookup_write (m : Memory) (a b : Nat) (v : Byte) :
    (m.write a v).lookup b = if b = a then some v else m.lookup b := by
  rw [Memory.write, Memory.lookup_insert _ _ _ _ (m.erase_has_no_entry a), Memory.lookup_erase]
  split <;> rfl

/-- A read after a write: the value written there, every other address as before. -/
@[simp] theorem Memory.read_write (m : Memory) (a b : Nat) (v : Byte) :
    (m.write a v).read b = if b = a then v else m.read b := by
  simp only [Memory.read, Memory.lookup_write]
  split <;> rfl

theorem Memory.wfFrom_mono {lo lo' : Nat} {m : Memory} (h : lo' ≤ lo) (hm : m.wfFrom lo = true) :
    m.wfFrom lo' = true := by
  cases m with
  | nil => rfl
  | cons c m =>
    simp only [Memory.wfFrom, Bool.and_eq_true, decide_eq_true_eq] at hm ⊢
    exact ⟨⟨by omega, hm.1.2⟩, hm.2⟩

theorem Memory.erase_wfFrom {lo : Nat} {m : Memory} (a : Nat) (hm : m.wfFrom lo = true) :
    (m.erase a).wfFrom lo = true := by
  induction m generalizing lo with
  | nil => rfl
  | cons c m ih =>
    obtain ⟨k, v⟩ := c
    simp only [Memory.wfFrom, Bool.and_eq_true, decide_eq_true_eq] at hm
    have step := ih hm.2
    simp only [Memory.erase, List.filter_cons] at step ⊢
    split
    · simp only [Memory.wfFrom, Bool.and_eq_true, decide_eq_true_eq]
      exact ⟨hm.1, step⟩
    · exact Memory.wfFrom_mono (by omega) step

theorem Memory.insert_wfFrom {lo a : Nat} {v : Byte} {m : Memory} (hlo : lo ≤ a) (ha : a < Config.memSize)
    (hm : m.wfFrom lo = true) (h : ∀ c ∈ m, c.1 ≠ a) :
    (m.insert a v).wfFrom lo = true := by
  induction m generalizing lo with
  | nil => simp [Memory.insert, Memory.wfFrom, hlo, ha]
  | cons c m ih =>
    obtain ⟨k, w⟩ := c
    have hk : k ≠ a := h (k, w) (by simp)
    simp only [Memory.wfFrom, Bool.and_eq_true, decide_eq_true_eq] at hm
    simp only [Memory.insert]
    split
    · simp only [Memory.wfFrom, Bool.and_eq_true, decide_eq_true_eq] at hm ⊢
      exact ⟨⟨hlo, ha⟩, ⟨by omega, hm.1.2⟩, hm.2⟩
    · simp only [Memory.wfFrom, Bool.and_eq_true, decide_eq_true_eq]
      exact ⟨hm.1, ih (by omega) hm.2 (fun c hc => h c (by simp [hc]))⟩

/-- A write inside the address space keeps the canonical form. -/
theorem Memory.write_wf {m : Memory} (a : Nat) (v : Byte) (ha : a < Config.memSize) (hm : m.wf = true) :
    (m.write a v).wf = true :=
  Memory.insert_wfFrom (Nat.zero_le a) ha (Memory.erase_wfFrom a hm) (m.erase_has_no_entry a)

/-- What a byte reads as after one byte is stored (addresses modulo 4096). -/
@[simp] theorem State.readByte_writeByte (s : State) (a j : Nat) (b : Byte) :
    (s.writeByte a b).readByte j =
      if j % Config.memSize = a % Config.memSize then b else s.readByte j := by
  simp [State.readByte]

theorem State.writeByte_mem_wf {s : State} (a : Nat) (b : Byte) (h : s.mem.wf = true) :
    (s.writeByte a b).mem.wf = true :=
  Memory.write_wf _ _ (Nat.mod_lt _ (by decide)) h

theorem State.writeBytes_mem_wf {s : State} (a : Nat) (l : List Byte) (h : s.mem.wf = true) :
    (s.writeBytes a l).mem.wf = true := by
  induction l generalizing s a with
  | nil => exact h
  | cons b l ih => exact ih (a + 1) (State.writeByte_mem_wf a b h)

/-- `writeBytes` changes memory and nothing else. -/
theorem State.writeBytes_eq (s : State) (a : Nat) (l : List Byte) :
    s.writeBytes a l = { s with mem := (s.writeBytes a l).mem } := by
  induction l generalizing s a with
  | nil => rfl
  | cons b l ih => exact ih (s.writeByte a b) (a + 1)

/-- What a byte reads as after a list of at most 4096 bytes is stored at `a`: byte `k` at `(a + k) mod 4096`, every
other address as before. -/
theorem State.readByte_writeBytes (s : State) (a j : Nat) (l : List Byte) (hl : l.length ≤ 4096) :
    (∀ (k : Nat) (h : k < l.length), j % 4096 = (a + k) % 4096 → (s.writeBytes a l).readByte j = l[k]) ∧
    ((∀ k < l.length, j % 4096 ≠ (a + k) % 4096) → (s.writeBytes a l).readByte j = s.readByte j) := by
  induction l generalizing s a with
  | nil => exact ⟨fun k h => by simp at h, fun _ => rfl⟩
  | cons b l ih =>
    simp only [List.length_cons] at hl
    obtain ⟨hit, miss⟩ := ih (s.writeByte a b) (a + 1) (by omega)
    refine ⟨fun k h hk => ?_, fun h => ?_⟩
    · cases k with
      | zero =>
        rw [State.writeBytes, miss (fun k hk' => by omega)]
        simpa using fun hne => absurd hk (by simpa using hne)
      | succ k =>
        simp only [List.length_cons] at h
        simpa [State.writeBytes] using hit k (by omega) (by omega)
    · rw [State.writeBytes, miss (fun k hk => ?_)]
      · have := h 0 (by simp)
        simpa using fun he => absurd he this
      · have := h (k + 1) (by simpa using hk)
        omega

/-- Byte `k` of a stored list of at most 4096 bytes. -/
theorem State.readByte_writeBytes_hit (s : State) (a k : Nat) (l : List Byte) (hl : l.length ≤ 4096)
    (h : k < l.length) : (s.writeBytes a l).readByte (a + k) = l[k] :=
  (s.readByte_writeBytes a (a + k) l hl).1 k h rfl

end Sys2Proof.Machine
end

