-- ==== Sys2Proof/Laws/Ops.lean ====
section
/-! SUPPORT. For each shared operation over registers, stack, keys and flags, what it can do, said once. -/

namespace Sys2Proof.Machine

variable (s : State)

/-! ### Registers -/

/-- A register after a register write. -/
@[simp] theorem State.readV_writeV (r q : Nibble) (b : Byte) :
    (s.writeV r b).readV q = if q = r then b else s.readV q := by
  simp only [State.readV, State.writeV, Vector.getElem_set]
  by_cases h : q = r
  · simp [h]
  · have : ¬ r.toNat = q.toNat := fun e => h (BitVec.eq_of_toNat_eq e.symm)
    simp [h, this]

/-- A register after the flag write. -/
@[simp] theorem State.readV_writeFlag (q : Nibble) (f : Byte) :
    (s.writeFlag f).readV q = if q = regVF then f else s.readV q :=
  s.readV_writeV regVF q f

/-- `loadRegs` changes registers and nothing else. -/
theorem State.loadRegs_eq (a k : Nat) : s.loadRegs a k = { s with v := (s.loadRegs a k).v } := by
  induction k with
  | zero => rfl
  | succ k ih => rw [State.loadRegs, ih]; rfl

@[simp] theorem State.readByte_loadRegs (a k j : Nat) : (s.loadRegs a k).readByte j = s.readByte j := by
  rw [State.loadRegs_eq]; rfl

/-- A register after the block load of `k` registers: registers below `k` hold their byte, the others are kept. -/
theorem State.readV_loadRegs (a k : Nat) (hk : k ≤ 16) (r : Nibble) :
    (s.loadRegs a k).readV r = if r.toNat < k then s.readByte (a + r.toNat) else s.readV r := by
  induction k with
  | zero => simp [State.loadRegs]
  | succ k ih =>
    simp only [State.loadRegs, State.readV_writeV, ih (by omega)]
    by_cases h : r = BitVec.ofNat 4 k
    · have : r.toNat = k := by rw [h, BitVec.toNat_ofNat]; omega
      rw [if_pos h, this, if_pos (by omega)]
    · have : r.toNat ≠ k := fun e => h (by rw [← e]; simp)
      simp only [h, if_false]
      split <;> split <;> first | rfl | omega

/-- The list the block store stores: register `j` is its byte `j`. -/
theorem State.regList_get (k j : Nat) (h : j < (s.regList k).length) :
    (s.regList k)[j] = s.readV (BitVec.ofNat 4 j) := by
  simp [State.regList]

@[simp] theorem State.regList_length (k : Nat) : (s.regList k).length = k := by simp [State.regList]

/-- A skip changes PC and nothing else. -/
theorem State.skipIf_eq (c : Bool) : s.skipIf c = s.setPc (s.pc + if c then 2#16 else 0#16) := by
  cases c <;> simp [State.skipIf, State.setPc]

/-! ### Call stack -/

/-- A push on a stack that is not full. -/
theorem State.push_of_lt (w : Word) (h : s.sp.val < 16) :
    ∃ t, s.push w = some t ∧ t.sp.val = s.sp.val + 1 ∧
      (∀ k, k < 16 → t.stackAt k = if k = s.sp.val then w else s.stackAt k) ∧
      t = { s with stack := t.stack, sp := t.sp } := by
  refine ⟨{ s with stack := s.stack.set s.sp.val w h, sp := ⟨s.sp.val + 1, Nat.succ_lt_succ h⟩ },
    by simp [State.push, h], rfl, fun k hk => ?_, rfl⟩
  simp only [State.stackAt, Vector.getElem?_set]
  by_cases e : s.sp.val = k
  · simp [e]
  · simp [e, Ne.symm e]

/-- A push on a full stack is refused. -/
theorem State.push_of_full (w : Word) (h : s.sp.val = 16) : s.push w = none := by
  simp [State.push, h]

/-- A pop from a stack that is not empty. -/
theorem State.pop_of_pos (h : s.sp.val ≠ 0) :
    ∃ t, s.pop = some (s.stackAt (s.sp.val - 1), t) ∧ t.sp.val = s.sp.val - 1 ∧ t = { s with sp := t.sp } := by
  refine ⟨{ s with sp := ⟨s.sp.val - 1, Nat.lt_of_le_of_lt (Nat.sub_le _ _) s.sp.isLt⟩ }, ?_, rfl, rfl⟩
  rw [State.pop, if_neg h]

/-- A pop from an empty stack is refused. -/
theorem State.pop_of_empty (h : s.sp.val = 0) : s.pop = none := by
  rw [State.pop, if_pos h]

/-! ### Keys -/

/-- No key is down exactly where the vector is 0. -/
theorem lowestKey_eq_none (ks : Word) : lowestKey ks = none ↔ ks = 0#16 := by
  simp only [lowestKey, List.find?_eq_none, List.mem_range, keyDown, Bool.not_eq_true]
  refine ⟨fun h => BitVec.eq_of_getLsbD_eq fun k hk => by simpa using h k hk, fun h k _ => by simp [h]⟩

/-- The key found is down, it is one of the sixteen, and no lower key is down. -/
theorem lowestKey_eq_some {ks : Word} {k : Nat} (h : lowestKey ks = some k) :
    k < 16 ∧ keyDown ks k = true ∧ ∀ j < k, keyDown ks j = false := by
  rw [lowestKey, List.find?_eq_some_iff_append] at h
  obtain ⟨hk, as, bs, he, hlow⟩ := h
  have hlen : as.length < 16 := by
    have := congrArg List.length he
    simp at this
    omega
  have hget : ∀ j (hj : j < as.length), as[j] = j := fun j hj => by
    have := congrArg (fun l => l[j]?) he
    simp [List.getElem?_append, hj, show j < 16 by omega] at this
    omega
  have hka : k = as.length := by
    have := congrArg (fun l => l[as.length]?) he
    simp [hlen] at this
    omega
  refine ⟨by omega, hk, fun j hj => ?_⟩
  have := hlow j (by rw [← hget j (by omega)]; exact List.getElem_mem _)
  simpa using this

/-! ### Flags -/

/-- A flag is 0x00 or 0x01 (R24). -/
theorem flagOf_cases (c : Bool) : flagOf c = 0x00#8 ∨ flagOf c = 0x01#8 := by
  cases c <;> simp [flagOf]

/-! ### The phases around the body -/

/-- One tick: one lower, stopping at 0. -/
theorem tickDown_toNat (t : Byte) : (tickDown t).toNat = t.toNat - 1 := by
  unfold tickDown
  split
  · next h => simp [h]
  · next h =>
    have : t.toNat ≠ 0 := fun e => h (BitVec.eq_of_toNat_eq (by simpa using e))
    have := t.isLt
    rw [BitVec.toNat_sub]
    simp
    omega

/-- The timer phase of a step that raised nothing. -/
theorem State.timerPhase_of_running (h : s.halt = false) :
    s.timerPhase = s.tickTimers := by
  simp [State.timerPhase, h]

/-- There is no timer phase in a step that raised a fatal condition. -/
theorem State.timerPhase_of_halted (h : s.halt = true) : s.timerPhase = s := by
  simp [State.timerPhase, h]

/-- What a step can do: it repeats the latched condition, raises UnknownOpcode, or runs the decoded instruction and
ends the step. -/
theorem step_cases {t : State} (h : step s = .next t) :
    (s.halt = true ∧ t = s.stepHalted) ∨
    (s.halt = false ∧ (∃ e, decodeWord s.fetchWord = .error e) ∧ t = s.undecodable) ∨
    (s.halt = false ∧ ∃ i u, decodeWord s.fetchWord = .ok i ∧ exec i s = .next u ∧
      t = u.timerPhase.consumeInputs) := by
  unfold step at h
  cases hh : s.halt with
  | true => simp_all
  | false =>
    cases hd : decodeWord s.fetchWord with
    | error e => simp_all
    | ok i =>
      cases he : exec i s with
      | next u => simp_all [finishStep]
      | fault f => cases f
      | refused r => simp_all [finishStep]

end Sys2Proof.Machine
end

