-- ==== Sys2Proof/Laws/Display.lean ====
section
/-! SUPPORT. The display buffer and the rasterizer: a single pixel, a sprite row, a whole sprite. -/

namespace Sys2Proof.Machine

/-- Every pixel of the blank display is 0. -/
@[simp] theorem Display.pixel_blank (x y : Nat) : Display.blank.pixel x y = false := by
  simp only [Display.pixel, Display.blank, Vector.getElem?_replicate]
  split <;> simp

/-- A toggle inside the display inverts its pixel and no other. -/
theorem Display.pixel_toggle (d : Display) {x y : Nat} (hx : x < 64) (hy : y < 32) (p q : Nat) :
    (d.toggle x y).pixel p q = (d.pixel p q ^^ (decide (p = x) && decide (q = y))) := by
  simp only [Display.pixel, Display.toggle, Vector.getElem?_setIfInBounds]
  by_cases hq : y = q
  · subst hq
    by_cases hp : p = x
    · subst hp; simp [hy, hx]
    · have : (1#64 <<< x).getLsbD p = false := by
        simp only [BitVec.getLsbD_shiftLeft, BitVec.getLsbD_one]
        by_cases hlt : p < x
        · simp [hlt]
        · simp; omega
      simp [hy, hp, this]
  · simp [hq, Ne.symm hq]

/-- Two displays with the same 64 by 32 pixels are the same display. -/
theorem Display.ext_pixel {d e : Display} (h : ∀ x < 64, ∀ y < 32, d.pixel x y = e.pixel x y) : d = e := by
  refine Vector.ext fun y hy => BitVec.eq_of_getLsbD_eq fun x hx => ?_
  simpa [Display.pixel, hy] using h x hx y hy

/-- One set sprite bit inside the display. -/
theorem Raster.pixel_xorPixel (r : Raster) {x y : Nat} (hx : x < 64) (hy : y < 32) (p q : Nat) :
    (r.xorPixel x y).fb.pixel p q = (r.fb.pixel p q ^^ (decide (p = x) && decide (q = y))) :=
  Display.pixel_toggle r.fb hx hy p q

@[simp] theorem Raster.coll_xorPixel (r : Raster) (x y : Nat) :
    (r.xorPixel x y).coll = (r.coll || r.fb.pixel x y) := rfl

/-- `r` becomes `t` by drawing set bits whose targets are the pixels in `hits`: those are inverted, the others kept, and
a collision is added exactly where one of them was on. -/
def Draws (r t : Raster) (hits : Nat → Nat → Prop) : Prop :=
  (∀ p q, (hits p q → t.fb.pixel p q = !r.fb.pixel p q) ∧ (¬ hits p q → t.fb.pixel p q = r.fb.pixel p q)) ∧
  (t.coll = true ↔ r.coll = true ∨ ∃ p q, hits p q ∧ r.fb.pixel p q = true)

/-- Drawing nothing. -/
theorem Draws.nothing (r : Raster) {hits : Nat → Nat → Prop} (h : ∀ p q, ¬ hits p q) : Draws r r hits :=
  ⟨fun p q => ⟨fun hh => absurd hh (h p q), fun _ => rfl⟩, by simp [h]⟩

/-- Drawing one set bit. -/
theorem Draws.pixel (r : Raster) {x y : Nat} (hx : x < 64) (hy : y < 32) :
    Draws r (r.xorPixel x y) (fun p q => p = x ∧ q = y) := by
  refine ⟨fun p q => ⟨?_, fun h => ?_⟩, ?_⟩
  · rintro ⟨rfl, rfl⟩
    simp [Raster.pixel_xorPixel r hx hy]
  · rw [Raster.pixel_xorPixel r hx hy]
    by_cases hp : p = x <;> simp_all
  · simp

/-- Drawing one set of targets and then another that shares none with it. -/
theorem Draws.trans {r t u : Raster} {h1 h2 : Nat → Nat → Prop} (a : Draws r t h1) (b : Draws t u h2)
    (disjoint : ∀ p q, h1 p q → ¬ h2 p q) : Draws r u (fun p q => h1 p q ∨ h2 p q) := by
  obtain ⟨ap, ac⟩ := a
  obtain ⟨bp, bc⟩ := b
  refine ⟨fun p q => ⟨?_, fun h => ?_⟩, ?_⟩
  · rintro (h | h)
    · rw [(bp p q).2 (disjoint p q h), (ap p q).1 h]
    · rw [(bp p q).1 h, (ap p q).2 (fun h' => disjoint p q h' h)]
  · rw [(bp p q).2 (fun h' => h (.inr h')), (ap p q).2 (fun h' => h (.inl h'))]
  · rw [bc, ac]
    constructor
    · rintro ((h | ⟨p, q, h, e⟩) | ⟨p, q, h, e⟩)
      · exact .inl h
      · exact .inr ⟨p, q, .inl h, e⟩
      · exact .inr ⟨p, q, .inr h, by rwa [(ap p q).2 (fun h' => disjoint p q h' h)] at e⟩
    · rintro (h | ⟨p, q, h | h, e⟩)
      · exact .inl (.inl h)
      · exact .inl (.inr ⟨p, q, h, e⟩)
      · exact .inr ⟨p, q, h, by rwa [(ap p q).2 (fun h' => disjoint p q h' h)]⟩

/-- The same targets under another name. -/
theorem Draws.congr {r t : Raster} {h1 h2 : Nat → Nat → Prop} (a : Draws r t h1) (h : ∀ p q, h1 p q ↔ h2 p q) :
    Draws r t h2 := by
  have : h1 = h2 := funext fun p => funext fun q => propext (h p q)
  exact this ▸ a

/-- The first `k` columns of a sprite row. -/
theorem Raster.draws_drawCols (r : Raster) (vx : Nat) {py : Nat} (hy : py < 32) (b : Byte) {k : Nat} (hk : k ≤ 64) :
    Draws r (r.drawCols vx py b k)
      (fun p q => ∃ c < k, b.getLsbD (7 - c) = true ∧ p = (vx + c) % 64 ∧ q = py) := by
  induction k with
  | zero => exact Draws.nothing r (by simp)
  | succ k ih =>
    have ih := ih (by omega)
    simp only [Raster.drawCols]
    by_cases hb : b.getLsbD (7 - k) = true
    · rw [if_pos hb]
      refine (ih.trans (Draws.pixel _ (Nat.mod_lt _ (by decide)) hy) ?_).congr fun p q => ?_
      · rintro p q ⟨c, hc, -, rfl, -⟩ ⟨e, -⟩
        omega
      · simp only [Nat.lt_succ_iff_lt_or_eq, or_and_right, exists_or, exists_eq_left, hb, true_and]
    · rw [if_neg hb]
      refine ih.congr fun p q => ?_
      simp only [Nat.lt_succ_iff_lt_or_eq, or_and_right, exists_or, exists_eq_left, hb, Bool.false_eq_true,
        false_and, or_false]

/-- The first `k` rows of a sprite. -/
theorem Raster.draws_drawRows (r : Raster) (vx vy : Nat) (row : Nat → Byte) {k : Nat} (hk : k ≤ 32) :
    Draws r (r.drawRows vx vy row k)
      (fun p q => ∃ j < k, ∃ c < 8, (row j).getLsbD (7 - c) = true ∧ p = (vx + c) % 64 ∧ q = (vy + j) % 32) := by
  induction k with
  | zero => exact Draws.nothing r (by simp)
  | succ k ih =>
    have ih := ih (by omega)
    refine (ih.trans (Raster.draws_drawCols _ vx (Nat.mod_lt _ (by decide)) (row k) (by decide)) ?_).congr fun p q => ?_
    · rintro p q ⟨j, hj, c, -, -, -, rfl⟩ ⟨c', -, -, -, e⟩
      omega
    · simp only [Nat.lt_succ_iff_lt_or_eq, or_and_right, exists_or, exists_eq_left]

/-- A whole sprite: the targets of its set bits are inverted, and the collision is seen over all of it. -/
theorem State.draws_drawSprite (s : State) (x y n : Nibble) :
    Draws ⟨s.fb, false⟩ (s.drawSprite (s.readV x) (s.readV y) n) (spriteHits s x y n) :=
  Raster.draws_drawRows _ _ _ _ (by have := n.isLt; omega)

end Sys2Proof.Machine
end

