-- ==== Sys2Proof/Laws/Exec.lean ====
section
/-! SUPPORT. What the instructions with more than one way to end can answer, that block accesses read nothing but what
they name, and the first step of a run. -/

namespace Sys2Proof.Machine

variable (s : State)

/-- RET: an empty stack raises, else PC is the popped entry and SP is one lower. -/
theorem exec_ret : (s.sp.val = 0 ∧ exec .ret s = .next (s.raiseFatal .stackUnderflow 0x00EE#16)) ∨
    (s.sp.val ≠ 0 ∧ ∃ p : Fin 17, p.val = s.sp.val - 1 ∧
      exec .ret s = (({ s with sp := p }).setPc (s.stackAt (s.sp.val - 1))).done) := by
  by_cases h : s.sp.val = 0
  · refine .inl ⟨h, ?_⟩
    show execRet s = _
    rw [execRet, State.pop_of_empty s.advancePc h]
    rfl
  · obtain ⟨t, e, h2, h3⟩ := State.pop_of_pos s.advancePc h
    refine .inr ⟨h, t.sp, h2, ?_⟩
    show execRet s = _
    rw [execRet, e, h3]
    rfl

/-- CALL: a full stack raises, else the return address is on top of the stack and PC is the target. -/
theorem exec_callNnn (nnn : Imm12) :
    (s.sp.val = 16 ∧ exec (.callNnn nnn) s = .next (s.raiseFatal .stackOverflow (wordNnn 0x2#4 nnn))) ∨
    (s.sp.val < 16 ∧ ∃ (st : Vector Word 16) (p : Fin 17), p.val = s.sp.val + 1 ∧
      (∀ k < 16, st[k]?.getD 0x0000#16 = if k = s.sp.val then s.pc + 2#16 else s.stackAt k) ∧
      exec (.callNnn nnn) s = (({ s with sp := p, stack := st }).setPc (zextNnn nnn)).done) := by
  have := s.sp.isLt
  by_cases h : s.sp.val = 16
  · refine .inl ⟨h, ?_⟩
    show execCallNnn nnn s = _
    rw [execCallNnn, State.push_of_full s.advancePc _ h]
    rfl
  · have h : s.sp.val < 16 := by omega
    obtain ⟨t, e, h2, h3, h4⟩ := State.push_of_lt s.advancePc s.advancePc.pc h
    refine .inr ⟨h, t.stack, t.sp, h2, h3, ?_⟩
    show execCallNnn nnn s = _
    rw [execCallNnn, e, h4]
    rfl

/-- LD Vx,K: no key is down and PC goes back, or the lowest key that is down goes to Vx. -/
theorem exec_ldVxK (x : Nibble) :
    (s.keys = 0#16 ∧ exec (.ldVxK x) s = .next s.advancePc.needsInput) ∨
    (s.keys ≠ 0#16 ∧ ∃ k, lowestKey s.keys = some k ∧
      exec (.ldVxK x) s = .next ((s.advancePc.writeV x (BitVec.ofNat 8 k)).setResult .ok)) := by
  cases hl : lowestKey s.keys with
  | none =>
    refine .inl ⟨(lowestKey_eq_none _).1 hl, ?_⟩
    show execLdVxK x s = _
    rw [execLdVxK, hl]
  | some k =>
    refine .inr ⟨fun h => ?_, k, rfl, ?_⟩
    · rw [(lowestKey_eq_none _).2 h] at hl
      cases hl
    · show execLdVxK x s = _
      rw [execLdVxK, hl]

/-- The bytes after a block store depend on the bytes before it alone. -/
theorem State.writeBytes_mem_congr {s t : State} (h : s.mem = t.mem) (a : Nat) (l : List Byte) :
    (s.writeBytes a l).mem = (t.writeBytes a l).mem := by
  induction l generalizing s t a with
  | nil => exact h
  | cons b l ih => exact ih (congrArg (fun m => Memory.write m (a % Config.memSize) b) h) (a + 1)

/-- The registers after a block load depend on the registers and the bytes before it alone. -/
theorem State.loadRegs_v_congr {s t : State} (hv : s.v = t.v) (hm : s.mem = t.mem) (a k : Nat) :
    (s.loadRegs a k).v = (t.loadRegs a k).v := by
  induction k with
  | zero => exact hv
  | succ k ih => simp only [State.loadRegs, State.writeV, ih, State.readByte, hm]

/-- A run of any machine, one step taken. -/
theorem host_run_succ (M : Host.Core) (k : Nat) {s t : M.State} (h : M.step s = .next t) :
    M.run (k + 1) s = M.run k t := by
  simp only [Host.Core.run, h]

/-- A run of this machine, one step taken. -/
theorem run_succ (k : Nat) {s t : State} (h : step s = .next t) :
    Host.Core.run Sys2Proof.core (k + 1) s = Host.Core.run Sys2Proof.core k t :=
  host_run_succ Sys2Proof.core k h

end Sys2Proof.Machine
end

