-- ==== Sys2Proof/Laws/PerInstr.lean ====
section
/-! SUPPORT. The fields of a word put together from its parts (spec/30_encoding.md R91), and per instruction that the
decoder reads an encoded well-formed instruction back (family RoundTrip of LAWS.json). -/

namespace Sys2Proof

/-! ### The three layouts of R92 as numbers -/

theorem toNat_wordNnn (op : Nibble) (nnn : Imm12) :
    (wordNnn op nnn).toNat = op.toNat * 4096 + nnn.toNat := by
  have h : (wordNnn op nnn).toNat = op.toNat <<< 12 ||| nnn.toNat := BitVec.toNat_append op nnn
  rw [h, ← Nat.shiftLeft_add_eq_or_of_lt nnn.isLt, Nat.shiftLeft_eq]

theorem toNat_wordXnn (op x : Nibble) (nn : Byte) :
    (wordXnn op x nn).toNat = op.toNat * 4096 + x.toNat * 256 + nn.toNat := by
  have h : (wordXnn op x nn).toNat = (op ++ x).toNat <<< 8 ||| nn.toNat := BitVec.toNat_append (op ++ x) nn
  rw [h, ← Nat.shiftLeft_add_eq_or_of_lt nn.isLt, BitVec.toNat_append,
    ← Nat.shiftLeft_add_eq_or_of_lt x.isLt, Nat.shiftLeft_eq, Nat.shiftLeft_eq]
  omega

theorem toNat_wordXyn (op x y n : Nibble) :
    (wordXyn op x y n).toNat = op.toNat * 4096 + x.toNat * 256 + y.toNat * 16 + n.toNat := by
  have h : (wordXyn op x y n).toNat = (op ++ x ++ y).toNat <<< 4 ||| n.toNat :=
    BitVec.toNat_append (op ++ x ++ y) n
  rw [h, ← Nat.shiftLeft_add_eq_or_of_lt n.isLt, BitVec.toNat_append, BitVec.toNat_append,
    ← Nat.shiftLeft_add_eq_or_of_lt y.isLt, ← Nat.shiftLeft_add_eq_or_of_lt x.isLt, Nat.shiftLeft_eq,
    Nat.shiftLeft_eq, Nat.shiftLeft_eq]
  omega

theorem toNat_wordOfBytes (hi lo : Byte) : (wordOfBytes hi lo).toNat = hi.toNat * 256 + lo.toNat := by
  have h : (wordOfBytes hi lo).toNat = hi.toNat <<< 8 ||| lo.toNat := BitVec.toNat_append hi lo
  rw [h, ← Nat.shiftLeft_add_eq_or_of_lt lo.isLt, Nat.shiftLeft_eq]

/-! ### The fields of R91 as numbers -/

theorem toNat_fieldOp (w : Word) : (fieldOp w).toNat = w.toNat / 4096 % 16 := by
  simp [fieldOp, BitVec.extractLsb'_toNat, Nat.shiftRight_eq_div_pow]
theorem toNat_fieldX (w : Word) : (fieldX w).toNat = w.toNat / 256 % 16 := by
  simp [fieldX, BitVec.extractLsb'_toNat, Nat.shiftRight_eq_div_pow]
theorem toNat_fieldY (w : Word) : (fieldY w).toNat = w.toNat / 16 % 16 := by
  simp [fieldY, BitVec.extractLsb'_toNat, Nat.shiftRight_eq_div_pow]
theorem toNat_fieldN (w : Word) : (fieldN w).toNat = w.toNat % 16 := by
  simp [fieldN, BitVec.extractLsb'_toNat, Nat.shiftRight_eq_div_pow]
theorem toNat_fieldNn (w : Word) : (fieldNn w).toNat = w.toNat % 256 := by
  simp [fieldNn, BitVec.extractLsb'_toNat, Nat.shiftRight_eq_div_pow]
theorem toNat_fieldNnn (w : Word) : (fieldNnn w).toNat = w.toNat % 4096 := by
  simp [fieldNnn, BitVec.extractLsb'_toNat, Nat.shiftRight_eq_div_pow]
theorem toNat_highByte (w : Word) : (highByte w).toNat = w.toNat / 256 % 256 := by
  simp [highByte, BitVec.extractLsb'_toNat, Nat.shiftRight_eq_div_pow]
theorem toNat_lowByte (w : Word) : (lowByte w).toNat = w.toNat % 256 := by
  simp [lowByte, BitVec.extractLsb'_toNat, Nat.shiftRight_eq_div_pow]

/-! ### Fields of a word put together from its parts -/

section Fields
variable (op x y n : Nibble) (nn : Byte) (nnn : Imm12)

@[simp] theorem fieldOp_wordNnn : fieldOp (wordNnn op nnn) = op :=
  BitVec.eq_of_toNat_eq (by rw [toNat_fieldOp, toNat_wordNnn]; omega)
@[simp] theorem fieldOp_wordXnn : fieldOp (wordXnn op x nn) = op :=
  BitVec.eq_of_toNat_eq (by rw [toNat_fieldOp, toNat_wordXnn]; omega)
@[simp] theorem fieldOp_wordXyn : fieldOp (wordXyn op x y n) = op :=
  BitVec.eq_of_toNat_eq (by rw [toNat_fieldOp, toNat_wordXyn]; omega)
@[simp] theorem fieldX_wordXnn : fieldX (wordXnn op x nn) = x :=
  BitVec.eq_of_toNat_eq (by rw [toNat_fieldX, toNat_wordXnn]; omega)
@[simp] theorem fieldX_wordXyn : fieldX (wordXyn op x y n) = x :=
  BitVec.eq_of_toNat_eq (by rw [toNat_fieldX, toNat_wordXyn]; omega)
@[simp] theorem fieldY_wordXyn : fieldY (wordXyn op x y n) = y :=
  BitVec.eq_of_toNat_eq (by rw [toNat_fieldY, toNat_wordXyn]; omega)
@[simp] theorem fieldN_wordXyn : fieldN (wordXyn op x y n) = n :=
  BitVec.eq_of_toNat_eq (by rw [toNat_fieldN, toNat_wordXyn]; omega)
@[simp] theorem fieldNn_wordXnn : fieldNn (wordXnn op x nn) = nn :=
  BitVec.eq_of_toNat_eq (by rw [toNat_fieldNn, toNat_wordXnn]; omega)
@[simp] theorem fieldNnn_wordNnn : fieldNnn (wordNnn op nnn) = nnn :=
  BitVec.eq_of_toNat_eq (by rw [toNat_fieldNnn, toNat_wordNnn]; omega)

end Fields

@[simp] theorem wordOfBytes_highByte_lowByte (w : Word) : wordOfBytes (highByte w) (lowByte w) = w :=
  BitVec.eq_of_toNat_eq (by rw [toNat_wordOfBytes, toNat_highByte, toNat_lowByte]; omega)

/-- The decoder reads the instruction's own word as the instruction. -/
def Laws.RoundTrip.Statement (i : Instr) : Prop := i.wellFormed = true → decodeWord (encode i) = .ok i

theorem Laws.RoundTrip.cls : Laws.RoundTrip.Statement .cls := by
  exact fun _ => rfl
theorem Laws.RoundTrip.ret : Laws.RoundTrip.Statement .ret := by
  exact fun _ => rfl
theorem Laws.RoundTrip.jpNnn (nnn : Imm12) : Laws.RoundTrip.Statement (.jpNnn nnn) := by
  intro _; simp [encode, decodeWord]
theorem Laws.RoundTrip.callNnn (nnn : Imm12) : Laws.RoundTrip.Statement (.callNnn nnn) := by
  intro _; simp [encode, decodeWord]
theorem Laws.RoundTrip.seVxNn (x : Nibble) (nn : Byte) : Laws.RoundTrip.Statement (.seVxNn x nn) := by
  intro _; simp [encode, decodeWord]
theorem Laws.RoundTrip.sneVxNn (x : Nibble) (nn : Byte) : Laws.RoundTrip.Statement (.sneVxNn x nn) := by
  intro _; simp [encode, decodeWord]
theorem Laws.RoundTrip.seVxVy (x y : Nibble) : Laws.RoundTrip.Statement (.seVxVy x y) := by
  intro _; simp [encode, decodeWord]
theorem Laws.RoundTrip.ldVxNn (x : Nibble) (nn : Byte) : Laws.RoundTrip.Statement (.ldVxNn x nn) := by
  intro _; simp [encode, decodeWord]
theorem Laws.RoundTrip.addVxNn (x : Nibble) (nn : Byte) : Laws.RoundTrip.Statement (.addVxNn x nn) := by
  intro _; simp [encode, decodeWord]
theorem Laws.RoundTrip.ldVxVy (x y : Nibble) : Laws.RoundTrip.Statement (.ldVxVy x y) := by
  intro _; simp [encode, decodeWord, decodeFamily8]
theorem Laws.RoundTrip.orVxVy (x y : Nibble) : Laws.RoundTrip.Statement (.orVxVy x y) := by
  intro _; simp [encode, decodeWord, decodeFamily8]
theorem Laws.RoundTrip.andVxVy (x y : Nibble) : Laws.RoundTrip.Statement (.andVxVy x y) := by
  intro _; simp [encode, decodeWord, decodeFamily8]
theorem Laws.RoundTrip.xorVxVy (x y : Nibble) : Laws.RoundTrip.Statement (.xorVxVy x y) := by
  intro _; simp [encode, decodeWord, decodeFamily8]
theorem Laws.RoundTrip.addVxVy (x y : Nibble) : Laws.RoundTrip.Statement (.addVxVy x y) := by
  intro _; simp [encode, decodeWord, decodeFamily8]
theorem Laws.RoundTrip.subVxVy (x y : Nibble) : Laws.RoundTrip.Statement (.subVxVy x y) := by
  intro _; simp [encode, decodeWord, decodeFamily8]
theorem Laws.RoundTrip.shrVx (x y : Nibble) : Laws.RoundTrip.Statement (.shrVx x y) := by
  intro _; simp [encode, decodeWord, decodeFamily8]
theorem Laws.RoundTrip.subnVxVy (x y : Nibble) : Laws.RoundTrip.Statement (.subnVxVy x y) := by
  intro _; simp [encode, decodeWord, decodeFamily8]
theorem Laws.RoundTrip.shlVx (x y : Nibble) : Laws.RoundTrip.Statement (.shlVx x y) := by
  intro _; simp [encode, decodeWord, decodeFamily8]
theorem Laws.RoundTrip.sneVxVy (x y : Nibble) : Laws.RoundTrip.Statement (.sneVxVy x y) := by
  intro _; simp [encode, decodeWord]
theorem Laws.RoundTrip.ldINnn (nnn : Imm12) : Laws.RoundTrip.Statement (.ldINnn nnn) := by
  intro _; simp [encode, decodeWord]
theorem Laws.RoundTrip.jpV0Nnn (nnn : Imm12) : Laws.RoundTrip.Statement (.jpV0Nnn nnn) := by
  intro _; simp [encode, decodeWord]
theorem Laws.RoundTrip.rndVxNn (x : Nibble) (nn : Byte) : Laws.RoundTrip.Statement (.rndVxNn x nn) := by
  intro _; simp [encode, decodeWord]
theorem Laws.RoundTrip.drwVxVyN (x y n : Nibble) : Laws.RoundTrip.Statement (.drwVxVyN x y n) := by
  intro _; simp [encode, decodeWord]
theorem Laws.RoundTrip.skpVx (x : Nibble) : Laws.RoundTrip.Statement (.skpVx x) := by
  intro _; simp [encode, decodeWord, decodeFamilyE]
theorem Laws.RoundTrip.sknpVx (x : Nibble) : Laws.RoundTrip.Statement (.sknpVx x) := by
  intro _; simp [encode, decodeWord, decodeFamilyE]
theorem Laws.RoundTrip.ldVxDt (x : Nibble) : Laws.RoundTrip.Statement (.ldVxDt x) := by
  intro _; simp [encode, decodeWord, decodeFamilyF]
theorem Laws.RoundTrip.ldVxK (x : Nibble) : Laws.RoundTrip.Statement (.ldVxK x) := by
  intro _; simp [encode, decodeWord, decodeFamilyF]
theorem Laws.RoundTrip.ldDtVx (x : Nibble) : Laws.RoundTrip.Statement (.ldDtVx x) := by
  intro _; simp [encode, decodeWord, decodeFamilyF]
theorem Laws.RoundTrip.ldStVx (x : Nibble) : Laws.RoundTrip.Statement (.ldStVx x) := by
  intro _; simp [encode, decodeWord, decodeFamilyF]
theorem Laws.RoundTrip.addIVx (x : Nibble) : Laws.RoundTrip.Statement (.addIVx x) := by
  intro _; simp [encode, decodeWord, decodeFamilyF]
theorem Laws.RoundTrip.ldFVx (x : Nibble) : Laws.RoundTrip.Statement (.ldFVx x) := by
  intro _; simp [encode, decodeWord, decodeFamilyF]
theorem Laws.RoundTrip.ldBVx (x : Nibble) : Laws.RoundTrip.Statement (.ldBVx x) := by
  intro _; simp [encode, decodeWord, decodeFamilyF]
theorem Laws.RoundTrip.ldMemVx (x : Nibble) : Laws.RoundTrip.Statement (.ldMemVx x) := by
  intro _; simp [encode, decodeWord, decodeFamilyF]
theorem Laws.RoundTrip.ldVxMem (x : Nibble) : Laws.RoundTrip.Statement (.ldVxMem x) := by
  intro _; simp [encode, decodeWord, decodeFamilyF]
theorem Laws.RoundTrip.sysNnn (nnn : Imm12) : Laws.RoundTrip.Statement (.sysNnn nnn) := by
  intro h
  simp_all [encode, decodeWord, decodeFamily0, Instr.wellFormed, sysFieldOk]

end Sys2Proof
end

