-- ==== Sys2Proof/Tests/Slice0.lean ====
section
/-! SUPPORT. The model's own tests: words written out from the opcode map, ill-formed terms, one step per instruction with
the results of spec/95_test_vectors.md, and a witness for the hypotheses of every obligation that has some. -/

namespace Sys2Proof.Tests
open Sys2Proof.Machine

/-! ### Small states -/

/-- The next state, where there is one. -/
def nextOf : Host.Outcome State Fault Refusal → Option State
  | .next t => some t
  | .fault _ => none
  | .refused _ => none

/-- The reset state with a word at 0x200. -/
def at200 (w : Nat) : State := State.reset.withFetchWord 16 w

/-- The reset state with PC at `p` and a word there. -/
def atPc (p : Word) (w : Nat) : State := (State.reset.setPc p).withFetchWord 16 w

/-- One register set. -/
def setV (s : State) (r : Nibble) (v : Byte) : State := s.writeV r v

/-- One byte of memory set. -/
def setM (s : State) (a : Nat) (v : Byte) : State := s.writeByte a v

/-- The key vector and the random byte of the next step. -/
def drive (s : State) (keys : Word) (rnd : Byte) : State := { s with inputs := [⟨keys, rnd⟩] }

/-- `n` stack entries in use, each holding `w`. -/
def stacked (s : State) (n : Fin 17) (w : Word) : State := { s with sp := n, stack := Vector.replicate 16 w }

/-- Two pixels of row 0 and one of row 31 on: (0,0), (3,0) and (63,31). -/
def litDisplay : Display := ((Display.blank.toggle 0 0).toggle 3 0).toggle 63 31

/-- The display V-DR1 leaves: pixels (0,0) to (3,0) on. -/
def vdr1Display : Display := (((Display.blank.toggle 0 0).toggle 1 0).toggle 2 0).toggle 3 0

/-- A halted machine: RET with an empty stack. -/
def haltedState : State := (at200 0x00EE).raiseFatal .stackUnderflow 0x00EE#16

/-- A look at the state after one step. -/
def after {α : Type} (s : State) (f : State → α) : Option α := (nextOf (step s)).map f

/-- A look at the state after two steps. -/
def afterTwo {α : Type} (s : State) (f : State → α) : Option α :=
  ((nextOf (step s)).bind (fun t => nextOf (step t))).map f

/-! ### Decoding: words written bit by bit from spec/30_encoding.md R95 -/

/-- Rows 1 to 8, 20, 22. -/
theorem test_decode_control :
    decodeWord 0b0000000011100000#16 = .ok (.cls) ∧
    decodeWord 0b0000000011101110#16 = .ok (.ret) ∧
    decodeWord 0b0001101010111100#16 = .ok (.jpNnn 0xABC#12) ∧
    decodeWord 0b0010001100000000#16 = .ok (.callNnn 0x300#12) ∧
    decodeWord 0b0011101001000010#16 = .ok (.seVxNn 0xA#4 0x42#8) ∧
    decodeWord 0b0100101001000010#16 = .ok (.sneVxNn 0xA#4 0x42#8) ∧
    decodeWord 0b0101000100100000#16 = .ok (.seVxVy 0x1#4 0x2#4) ∧
    decodeWord 0b1001000100100000#16 = .ok (.sneVxVy 0x1#4 0x2#4) ∧
    decodeWord 0b1011001100000000#16 = .ok (.jpV0Nnn 0x300#12) ∧
    decodeWord 0b0000000100100011#16 = .ok (.sysNnn 0x123#12) := by decide

/-- Rows 9 to 19, 23. -/
theorem test_decode_arith :
    decodeWord 0b0110101000101011#16 = .ok (.ldVxNn 0xA#4 0x2B#8) ∧
    decodeWord 0b0111000100000101#16 = .ok (.addVxNn 0x1#4 0x05#8) ∧
    decodeWord 0b1000000100100000#16 = .ok (.ldVxVy 0x1#4 0x2#4) ∧
    decodeWord 0b1000000100100001#16 = .ok (.orVxVy 0x1#4 0x2#4) ∧
    decodeWord 0b1000000100100010#16 = .ok (.andVxVy 0x1#4 0x2#4) ∧
    decodeWord 0b1000000100100011#16 = .ok (.xorVxVy 0x1#4 0x2#4) ∧
    decodeWord 0b1000000100100100#16 = .ok (.addVxVy 0x1#4 0x2#4) ∧
    decodeWord 0b1000000100100101#16 = .ok (.subVxVy 0x1#4 0x2#4) ∧
    decodeWord 0b1000001000110110#16 = .ok (.shrVx 0x2#4 0x3#4) ∧
    decodeWord 0b1000000100100111#16 = .ok (.subnVxVy 0x1#4 0x2#4) ∧
    decodeWord 0b1000001000111110#16 = .ok (.shlVx 0x2#4 0x3#4) ∧
    decodeWord 0b1100001100001111#16 = .ok (.rndVxNn 0x3#4 0x0F#8) := by decide

/-- Rows 21, 31 to 35. -/
theorem test_decode_memory :
    decodeWord 0b1010001100000000#16 = .ok (.ldINnn 0x300#12) ∧
    decodeWord 0b1111001000011110#16 = .ok (.addIVx 0x2#4) ∧
    decodeWord 0b1111001000101001#16 = .ok (.ldFVx 0x2#4) ∧
    decodeWord 0b1111001000110011#16 = .ok (.ldBVx 0x2#4) ∧
    decodeWord 0b1111001001010101#16 = .ok (.ldMemVx 0x2#4) ∧
    decodeWord 0b1111001001100101#16 = .ok (.ldVxMem 0x2#4) := by decide

/-- Rows 24 to 30. -/
theorem test_decode_timers_display_keys :
    decodeWord 0b1111000100000111#16 = .ok (.ldVxDt 0x1#4) ∧
    decodeWord 0b1111000100010101#16 = .ok (.ldDtVx 0x1#4) ∧
    decodeWord 0b1111000100011000#16 = .ok (.ldStVx 0x1#4) ∧
    decodeWord 0b1101000100100011#16 = .ok (.drwVxVyN 0x1#4 0x2#4 0x3#4) ∧
    decodeWord 0b1110010110011110#16 = .ok (.skpVx 0x5#4) ∧
    decodeWord 0b1110010110100001#16 = .ok (.sknpVx 0x5#4) ∧
    decodeWord 0b1111010100001010#16 = .ok (.ldVxK 0x5#4) := by decide

/-- Illegal words of 95_test_vectors.md 2.2. -/
theorem test_decode_refuses_illegal_skips :
    decodeWord 0x5001#16 = .error (.unknownOpcode 0x5001#16) ∧
    decodeWord 0x512F#16 = .error (.unknownOpcode 0x512F#16) ∧
    decodeWord 0x9AB1#16 = .error (.unknownOpcode 0x9AB1#16) ∧
    decodeWord 0x900F#16 = .error (.unknownOpcode 0x900F#16) := by decide

/-- Illegal words of 95_test_vectors.md 2.2. -/
theorem test_decode_refuses_illegal_arith :
    decodeWord 0x8008#16 = .error (.unknownOpcode 0x8008#16) ∧
    decodeWord 0x812F#16 = .error (.unknownOpcode 0x812F#16) ∧
    decodeWord 0x8AB9#16 = .error (.unknownOpcode 0x8AB9#16) ∧
    decodeWord 0x8ABD#16 = .error (.unknownOpcode 0x8ABD#16) := by decide

/-- Illegal words of 95_test_vectors.md 2.2. -/
theorem test_decode_refuses_illegal_keys :
    decodeWord 0xE09F#16 = .error (.unknownOpcode 0xE09F#16) ∧
    decodeWord 0xE1A2#16 = .error (.unknownOpcode 0xE1A2#16) ∧
    decodeWord 0xE000#16 = .error (.unknownOpcode 0xE000#16) ∧
    decodeWord 0xEFFF#16 = .error (.unknownOpcode 0xEFFF#16) := by decide

/-- Illegal words of 95_test_vectors.md 2.2. -/
theorem test_decode_refuses_illegal_misc :
    decodeWord 0xF000#16 = .error (.unknownOpcode 0xF000#16) ∧
    decodeWord 0xF1FF#16 = .error (.unknownOpcode 0xF1FF#16) ∧
    decodeWord 0xF075#16 = .error (.unknownOpcode 0xF075#16) ∧
    decodeWord 0xF085#16 = .error (.unknownOpcode 0xF085#16) ∧
    decodeWord 0xF030#16 = .error (.unknownOpcode 0xF030#16) ∧
    decodeWord 0xF01F#16 = .error (.unknownOpcode 0xF01F#16) := by decide

/-- The odd but legal words of 2.2. -/
theorem test_decode_takes_odd_legal_words :
    decodeWord 0x8FF0#16 = .ok (.ldVxVy 0xF#4 0xF#4) ∧ decodeWord 0xD000#16 = .ok (.drwVxVyN 0x0#4 0x0#4 0x0#4) ∧
    decodeWord 0xFF65#16 = .ok (.ldVxMem 0xF#4) ∧ decodeWord 0xEF9E#16 = .ok (.skpVx 0xF#4) := by decide

/-- High byte first (20_memory.md R63), the rest handed back. -/
theorem test_decode_bytes :
    decode [0x1A#8, 0xBC#8, 0x77#8] = .ok (.jpNnn 0xABC#12, [0x77#8]) ∧ decode [0x1A#8] = .error (.tooFewBytes 1) := by decide

/-- The table's numbering: bit 0 is the least significant bit of the word. -/
theorem test_decode_table_word :
    decodeTableWord 16 0xD125 = some (.drwVxVyN 0x1#4 0x2#4 0x5#4) ∧ decodeTableWord 16 0x5001 = none := by decide

/-! ### WellFormed: the one check, on the terms it refuses -/

/-- 0x00E0 is CLS, not SYS (R95 row 1). -/
theorem test_wellFormed_refuses_cls_as_sys :
    (Instr.sysNnn 0x0E0#12).wellFormed = false := by decide

/-- 0x00EE is RET, not SYS (R95 row 1). -/
theorem test_wellFormed_refuses_ret_as_sys :
    (Instr.sysNnn 0x0EE#12).wellFormed = false := by decide

theorem test_wellFormed_takes_other_sys :
    (Instr.sysNnn 0x0E1#12).wellFormed = true ∧ (Instr.shrVx 0x2#4 0x3#4).wellFormed = true := by decide

/-! ### One step per instruction (95_test_vectors.md; the vector's name stands before each) -/

/-- 2.2: 0123. -/
theorem test_sys :
    after (at200 0x0123) (fun t => (t.pc, t.halt, t.hcause, t.hinfo)) = some (0x0200#16, true, .unknownOpcode, 0x0123#16) := by decide

/-- V-CF23. -/
theorem test_cls :
    after ({ at200 0x00E0 with fb := litDisplay }) (fun t => (decide (t.fb = Display.blank), t.dirty, t.pc)) = some (true, true, 0x0202#16) := by decide

/-- V-CF8. -/
theorem test_ret :
    after (stacked (atPc 0x0300#16 0x00EE) 2 0x1234#16) (fun t => (t.pc, t.sp)) = some (0x1234#16, 1) := by decide

/-- V-CF9. -/
theorem test_ret_underflow :
    after (atPc 0x0300#16 0x00EE) (fun t => (t.pc, t.halt, t.hcause, t.hinfo)) = some (0x0300#16, true, .stackUnderflow, 0x00EE#16) := by decide

/-- S5. -/
theorem test_jp :
    after (atPc 0x0F00#16 0x1ABC) (fun t => t.pc) = some 0x0ABC#16 := by decide

/-- V-CF4. -/
theorem test_call_wraps :
    after (atPc 0xFFFE#16 0x2300) (fun t => (t.pc, t.sp, t.stackAt 0)) = some (0x0300#16, 1, 0x0000#16) := by decide

/-- V-CF6. -/
theorem test_call_overflow :
    after (stacked (at200 0x2300) 16 0x0202#16) (fun t => (t.pc, t.sp, t.halt, t.hcause, t.hinfo)) = some (0x0200#16, 16, true, .stackOverflow, 0x2300#16) := by decide

/-- V-CF10. -/
theorem test_se_nn :
    after (setV (at200 0x3A42) 0xA#4 0x42#8) (fun t => t.pc) = some 0x0204#16 := by decide

/-- V-CF19. -/
theorem test_se_nn_wraps :
    after (atPc 0xFFFC#16 0x3000) (fun t => t.pc) = some 0x0000#16 := by decide

/-- V-CF12. -/
theorem test_sne_nn :
    after (setV (at200 0x4A42) 0xA#4 0x42#8) (fun t => t.pc) = some 0x0202#16 := by decide

/-- V-CF15. -/
theorem test_se_vy :
    after (setV (setV (at200 0x5120) 0x1#4 0x07#8) 0x2#4 0x08#8) (fun t => t.pc) = some 0x0202#16 := by decide

/-- V-CF16. -/
theorem test_se_vy_self :
    after (setV (at200 0x5330) 0x3#4 0x99#8) (fun t => t.pc) = some 0x0204#16 := by decide

/-- V-CF17. -/
theorem test_sne_vy :
    after (setV (setV (at200 0x9120) 0x1#4 0x07#8) 0x2#4 0x08#8) (fun t => t.pc) = some 0x0204#16 := by decide

/-- V-CF22. -/
theorem test_jp_v0 :
    after (setV (at200 0xBFFF) 0x0#4 0xFF#8) (fun t => t.pc) = some 0x10FE#16 := by decide

/-- V-AL2. -/
theorem test_ld_nn :
    after (at200 0x6F2B) (fun t => (t.readV 0xF#4, t.pc)) = some (0x2B#8, 0x0202#16) := by decide

/-- V-AL5. -/
theorem test_add_nn :
    after (setV (setV (at200 0x71FF) 0x1#4 0x05#8) 0xF#4 0x01#8) (fun t => (t.readV 0x1#4, t.readV 0xF#4)) = some (0x04#8, 0x01#8) := by decide

/-- V-AL6. -/
theorem test_ld_vy :
    after (setV (at200 0x8120) 0x2#4 0x33#8) (fun t => (t.readV 0x1#4, t.readV 0x2#4)) = some (0x33#8, 0x33#8) := by decide

/-- V-AL7. -/
theorem test_or :
    after (setV (setV (setV (at200 0x8011) 0x0#4 0xF0#8) 0x1#4 0x0F#8) 0xF#4 0x01#8) (fun t => (t.readV 0x0#4, t.readV 0xF#4)) = some (0xFF#8, 0x01#8) := by decide

/-- V-AL8. -/
theorem test_and :
    after (setV (setV (setV (at200 0x8012) 0x0#4 0xF3#8) 0x1#4 0x3F#8) 0xF#4 0x01#8) (fun t => (t.readV 0x0#4, t.readV 0xF#4)) = some (0x33#8, 0x01#8) := by decide

/-- V-AL9. -/
theorem test_xor :
    after (setV (setV (setV (at200 0x8013) 0x0#4 0xF3#8) 0x1#4 0x3F#8) 0xF#4 0x01#8) (fun t => (t.readV 0x0#4, t.readV 0xF#4)) = some (0xCC#8, 0x01#8) := by decide

/-- V-AL13. -/
theorem test_add_vy :
    after (setV (setV (setV (at200 0x8014) 0x0#4 0xFE#8) 0x1#4 0x01#8) 0xF#4 0x01#8) (fun t => (t.readV 0x0#4, t.readV 0xF#4)) = some (0xFF#8, 0x00#8) := by decide

/-- V-AL15. -/
theorem test_add_vf :
    after (setV (setV (at200 0x8F14) 0xF#4 0xF0#8) 0x1#4 0x20#8) (fun t => t.readV 0xF#4) = some 0x01#8 := by decide

/-- V-AL20. -/
theorem test_sub_equal :
    after (setV (setV (setV (at200 0x8015) 0x0#4 0x07#8) 0x1#4 0x07#8) 0xF#4 0x01#8) (fun t => (t.readV 0x0#4, t.readV 0xF#4)) = some (0x00#8, 0x00#8) := by decide

/-- V-AL18. -/
theorem test_sub_borrow :
    after (setV (setV (setV (at200 0x8015) 0x0#4 0x01#8) 0x1#4 0x02#8) 0xF#4 0x01#8) (fun t => (t.readV 0x0#4, t.readV 0xF#4)) = some (0xFF#8, 0x00#8) := by decide

/-- V-AL24. -/
theorem test_subn :
    after (setV (setV (at200 0x8017) 0x0#4 0x02#8) 0x1#4 0x05#8) (fun t => (t.readV 0x0#4, t.readV 0xF#4)) = some (0x03#8, 0x01#8) := by decide

/-- V-AL26. -/
theorem test_subn_equal :
    after (setV (setV (setV (at200 0x8017) 0x0#4 0x05#8) 0x1#4 0x05#8) 0xF#4 0x01#8) (fun t => (t.readV 0x0#4, t.readV 0xF#4)) = some (0x00#8, 0x00#8) := by decide

/-- V-AL29. -/
theorem test_shr :
    after (setV (setV (at200 0x8236) 0x2#4 0x05#8) 0x3#4 0xF0#8) (fun t => (t.readV 0x2#4, t.readV 0x3#4, t.readV 0xF#4)) = some (0x02#8, 0xF0#8, 0x01#8) := by decide

/-- V-AL32. -/
theorem test_shr_vf :
    after (setV (at200 0x8F06) 0xF#4 0x02#8) (fun t => t.readV 0xF#4) = some 0x00#8 := by decide

/-- V-AL33. -/
theorem test_shl :
    after (setV (at200 0x820E) 0x2#4 0x81#8) (fun t => (t.readV 0x2#4, t.readV 0xF#4)) = some (0x02#8, 0x01#8) := by decide

/-- V-AL37. -/
theorem test_shl_vf :
    after (setV (at200 0x8F0E) 0xF#4 0x7F#8) (fun t => t.readV 0xF#4) = some 0x00#8 := by decide

/-- V-AL38. -/
theorem test_rnd :
    after (drive (at200 0xC30F) 0x0000#16 0xA7#8) (fun t => t.readV 0x3#4) = some 0x07#8 := by decide

/-- V-AL39. -/
theorem test_rnd_zero_mask :
    after (drive (setV (at200 0xC300) 0x3#4 0x55#8) 0x0000#16 0xFF#8) (fun t => t.readV 0x3#4) = some 0x00#8 := by decide

/-- V-MI2. -/
theorem test_ld_i :
    after (at200 0xAFFF) (fun t => (t.i, t.pc)) = some (0x0FFF#16, 0x0202#16) := by decide

/-- V-MI4. -/
theorem test_add_i :
    after (setV ((at200 0xF21E).setI 0x0FFF#16) 0x2#4 0x01#8) (fun t => (t.i, t.readV 0xF#4)) = some (0x1000#16, 0x00#8) := by decide

/-- V-MI6. -/
theorem test_add_i_wraps :
    after (setV ((at200 0xF21E).setI 0xFFF0#16) 0x2#4 0xFF#8) (fun t => t.i) = some 0x00EF#16 := by decide

/-- V-MI7. -/
theorem test_ld_f :
    after (setV (at200 0xF029) 0x0#4 0x07#8) (fun t => t.i) = some 0x0023#16 := by decide

/-- V-MI9. -/
theorem test_ld_f_high_nibble :
    after (setV (at200 0xF029) 0x0#4 0x1A#8) (fun t => t.i) = some 0x0032#16 := by decide

/-- V-MI12. -/
theorem test_bcd :
    after (setV ((at200 0xF033).setI 0x0300#16) 0x0#4 0xFF#8) (fun t => (t.readByte 0x300, t.readByte 0x301, t.readByte 0x302)) = some (0x02#8, 0x05#8, 0x05#8) := by decide

/-- V-MI19. -/
theorem test_bcd_wraps :
    after (setV ((at200 0xF033).setI 0x1FFF#16) 0x0#4 0xEA#8) (fun t => (t.readByte 0xFFF, t.readByte 0x000, t.readByte 0x001, t.i)) = some (0x02#8, 0x03#8, 0x04#8, 0x1FFF#16) := by decide

/-- V-MI20. -/
theorem test_block_store :
    after (setV (setV (setV (setV (setM ((at200 0xF255).setI 0x0300#16) 0x303 0x00#8) 0x0#4 0x11#8) 0x1#4 0x22#8) 0x2#4 0x33#8) 0x3#4 0x44#8) (fun t => (t.readByte 0x300, t.readByte 0x301, t.readByte 0x302, t.readByte 0x303, t.i)) = some (0x11#8, 0x22#8, 0x33#8, 0x00#8, 0x0300#16) := by decide

/-- V-MI22. -/
theorem test_block_store_wraps :
    after (setV (setV ((at200 0xF155).setI 0x0FFF#16) 0x0#4 0xAA#8) 0x1#4 0xBB#8) (fun t => (t.readByte 0xFFF, t.readByte 0x000, t.i)) = some (0xAA#8, 0xBB#8, 0x0FFF#16) := by decide

/-- V-MI24. -/
theorem test_block_load :
    after (setV (setM (setM (setM ((at200 0xF265).setI 0x0300#16) 0x300 0x01#8) 0x301 0x05#8) 0x302 0x07#8) 0x3#4 0xEE#8) (fun t => (t.readV 0x0#4, t.readV 0x1#4, t.readV 0x2#4, t.readV 0x3#4)) = some (0x01#8, 0x05#8, 0x07#8, 0xEE#8) := by decide

/-- V-MI25. -/
theorem test_block_load_wraps :
    after (setM (setM ((at200 0xF165).setI 0x0FFF#16) 0xFFF 0x12#8) 0x000 0x34#8) (fun t => (t.readV 0x0#4, t.readV 0x1#4, t.i)) = some (0x12#8, 0x34#8, 0x0FFF#16) := by decide

/-- V-TM1. -/
theorem test_ld_vx_dt :
    after ((at200 0xF107).setDt 0x02#8) (fun t => (t.readV 0x1#4, t.dt)) = some (0x02#8, 0x01#8) := by decide

/-- V-TM4. -/
theorem test_ld_dt :
    after (setV ((at200 0xF015).setDt 0x07#8) 0x0#4 0x00#8) (fun t => t.dt) = some 0x00#8 := by decide

/-- V-TM6. -/
theorem test_ld_dt_max :
    after (setV (at200 0xF015) 0x0#4 0xFF#8) (fun t => t.dt) = some 0xFE#8 := by decide

/-- V-TM7. -/
theorem test_ld_st_one :
    after (setV (at200 0xF218) 0x2#4 0x01#8) (fun t => (t.st, t.tone)) = some (0x00#8, true) := by decide

/-- V-TM8. -/
theorem test_ld_st_two :
    after (setV (at200 0xF218) 0x2#4 0x02#8) (fun t => (t.st, t.tone)) = some (0x01#8, false) := by decide

/-- As V-DR3, with pixels (0,0) and (3,0) on: they go off, (1,0) and (2,0) go on. -/
theorem test_drw_collision :
    after (setM ({ (at200 0xD011).setI 0x0300#16 with fb := litDisplay }) 0x300 0xF0#8) (fun t => ([t.pixel 0 0, t.pixel 1 0, t.pixel 2 0, t.pixel 3 0, t.pixel 4 0, t.pixel 63 31], t.readV 0xF#4, t.dirty)) = some ([false, true, true, false, false, true], 0x01#8, true) := by decide

/-- V-DR8. -/
theorem test_drw_wraps :
    after (setM (setM (setV (setV ((at200 0xD122).setI 0x0300#16) 0x1#4 0xFF#8) 0x2#4 0xFF#8) 0x300 0xC0#8) 0x301 0xC0#8) (fun t => ([t.pixel 63 31, t.pixel 0 31, t.pixel 63 0, t.pixel 0 0, t.pixel 1 0], t.readV 0xF#4)) = some ([true, true, true, true, false], 0x00#8) := by decide

/-- V-KY3. -/
theorem test_skp :
    after (drive (setV (at200 0xE09E) 0x0#4 0x17#8) 0x0080#16 0x00#8) (fun t => t.pc) = some 0x0204#16 := by decide

/-- V-KY2. -/
theorem test_skp_up :
    after (drive (setV (at200 0xE09E) 0x0#4 0x04#8) 0x0088#16 0x00#8) (fun t => t.pc) = some 0x0202#16 := by decide

/-- V-KY5. -/
theorem test_sknp :
    after (drive (setV (at200 0xE0A1) 0x0#4 0x03#8) 0x0000#16 0x00#8) (fun t => t.pc) = some 0x0204#16 := by decide

/-- V-KY6. -/
theorem test_sknp_down :
    after (drive (setV (at200 0xE0A1) 0x0#4 0x03#8) 0x0008#16 0x00#8) (fun t => t.pc) = some 0x0202#16 := by decide

/-- V-KY7. -/
theorem test_ld_k :
    after (drive (setV (at200 0xF00A) 0x0#4 0xEE#8) 0x0088#16 0x00#8) (fun t => (t.readV 0x0#4, t.pc, t.result)) = some (0x03#8, 0x0202#16, some .ok) := by decide

/-- V-TM14. -/
theorem test_ld_k_waits :
    after (drive ({ at200 0xF00A with dt := 0x05#8, st := 0x01#8 }) 0x0000#16 0x00#8) (fun t => (t.result, t.pc, t.dt, t.st, t.tone)) = some (some .needsInput, 0x0200#16, 0x04#8, 0x00#8, true) := by decide

/-! ### The machine around the instructions -/

/-- V-FE1. -/
theorem test_fetch_wraps :
    after (setM (setM (State.reset.setPc 0x0FFF#16) 0xFFF 0x6A#8) 0x000 0x2B#8) (fun t => (t.readV 0xA#4, t.pc)) = some (0x2B#8, 0x1001#16) := by decide

/-- V-FE3. -/
theorem test_fetch_odd :
    after (setM (setM (State.reset.setPc 0x0201#16) 0x201 0x6A#8) 0x202 0x2B#8) (fun t => (t.readV 0xA#4, t.pc)) = some (0x2B#8, 0x0203#16) := by decide

/-- V-FE4. -/
theorem test_fetch_byte_order :
    after (setM (setM State.reset 0x200 0x2B#8) 0x201 0x6A#8) (fun t => (t.pc, t.stackAt 0)) = some (0x0B6A#16, 0x0202#16) := by decide

/-- S8, V-TM13. -/
theorem test_illegal :
    after ({ at200 0x5001 with dt := 0x05#8, st := 0x01#8 }) (fun t => ((t.pc, t.halt, t.hcause, t.hinfo), t.dt, t.st, t.tone)) = some ((0x0200#16, true, .unknownOpcode, 0x5001#16), 0x05#8, 0x01#8, false) := by decide

/-- P5a, step 2. -/
theorem test_halted_again :
    after ({ haltedState with dt := 0x05#8 }) (fun t => (t.pc, t.hinfo, t.dt, t.tone, t.result)) = some (0x0200#16, 0x00EE#16, 0x05#8, false, some (.fatal .stackUnderflow 0x00EE#16)) := by decide

/-- S9: the second step has no tone. -/
theorem test_tone_once :
    afterTwo ({ ((at200 0x8000).writeByte 0x202 0x80#8).writeByte 0x203 0x00#8 with st := 0x01#8 }) (fun t => (t.st, t.tone)) = some (0x00#8, false) := by decide

/-- V-TM10. -/
theorem test_timers_tick :
    after ({ at200 0x8000 with dt := 0x05#8, st := 0x01#8 }) (fun t => (t.dt, t.st, t.tone)) = some (0x04#8, 0x00#8, true) := by decide

/-- As P7: the stored word 120A is what the next step runs. -/
theorem test_self_modifying :
    afterTwo (setV (setV ((at200 0xF155).setI 0x0202#16) 0x0#4 0x12#8) 0x1#4 0x0A#8) (fun t => t.pc) = some 0x020A#16 := by decide

/-- S1. -/
theorem test_reset :
    (State.reset.pc, State.reset.i, State.reset.sp, State.reset.dt, State.reset.st, State.reset.halt, State.reset.dirty) =
    (0x0200#16, 0x0000#16, 0, 0x00#8, 0x00#8, false, false) := by decide

/-- 60_exceptions.md R260, 70_reset_and_hazards.md R292. -/
theorem test_reset_leaves_halt :
    (haltedState.hostAct .reset).halt = false ∧ (haltedState.hostAct .reset).mem = haltedState.mem := by decide

/-- P8: digit 7 stands at 0x023. -/
theorem test_font_digit_seven :
    (Config.fontBytes.drop 0x23).take 5 = [0xF0#8, 0x10#8, 0x20#8, 0x40#8, 0x40#8] ∧ Config.fontBytes.length = 80 ∧
    State.reset.loadFont.readByte 0x023 = 0xF0#8 := ⟨by decide, by decide, State.readByte_writeBytes_hit State.reset 0 0x23 Config.fontBytes (by decide) (by decide)⟩

/-- P9. -/
theorem test_runs_off_the_program :
    afterTwo (setM (setM (at200 0x6A2B) 0x202 0x00#8) 0x203 0x00#8) (fun t => (t.readV 0xA#4, t.pc, t.halt, t.hinfo)) = some (0x2B#8, 0x0202#16, true, 0x0000#16) := by decide

/-- 70_reset_and_hazards.md R296: nothing is assumed of a byte the host has not written. -/
theorem test_unwritten_byte_is_free :
    State.reset.readByte 0x300 = Config.memInit 0x300 := rfl

/-- 70_reset_and_hazards.md R293: with reset the LD at 0x200 is not performed, without it it is. -/
theorem test_reset_wins :
    nextOf ((at200 0x6A2B).request ⟨true, true⟩) = some (at200 0x6A2B).applyReset ∧
    (nextOf ((at200 0x6A2B).request ⟨true, true⟩)).map (fun t => (t.readV 0xA#4, t.pc, t.result)) = some (0x00#8, 0x0200#16, none) ∧
    (nextOf ((at200 0x6A2B).request ⟨false, true⟩)).map (fun t => (t.readV 0xA#4, t.pc, t.result)) = some (0x2B#8, 0x0202#16, some .ok) := ⟨rfl, by decide, by decide⟩

/-! ### Witnesses: the hypotheses of the obligations can be met -/

/-- O1: both ends of the range of nnn. -/
theorem test_witness_sys :
    (0x0E1#12 ≠ 0x0E0#12 ∧ 0x0E1#12 ≠ 0x0EE#12) ∧ (0xFFF#12 ≠ 0x0E0#12 ∧ 0xFFF#12 ≠ 0x0EE#12) := by decide

/-- O3: one entry, a full stack, an empty one. -/
theorem test_witness_ret :
    (stacked State.reset 1 0x0202#16).sp.val ≠ 0 ∧ (stacked State.reset 16 0x0202#16).sp.val ≠ 0 ∧ State.reset.sp.val = 0 := by decide

/-- O5: empty, one free entry, full; an entry other than the new one. -/
theorem test_witness_call :
    State.reset.sp.val < 16 ∧ (stacked State.reset 15 0x0202#16).sp.val < 16 ∧ (stacked State.reset 16 0x0202#16).sp.val = 16 ∧
    (14 < 16 ∧ 14 ≠ (stacked State.reset 15 0x0202#16).sp.val) := by decide

/-- O7: each condition true and false. -/
theorem test_witness_immediate_skips :
    State.reset.readV 0xF#4 = 0x00#8 ∧ ¬ State.reset.readV 0xF#4 = 0xFF#8 ∧ State.reset.readV 0x0#4 ≠ 0x01#8 ∧ ¬ State.reset.readV 0x0#4 ≠ 0x00#8 := by decide

/-- O8: equal, not equal, and the lowest and highest illegal low nibble. -/
theorem test_witness_register_skips :
    State.reset.readV 0x1#4 = State.reset.readV 0x2#4 ∧ (setV State.reset 0x1#4 0xFF#8).readV 0x1#4 ≠ (setV State.reset 0x1#4 0xFF#8).readV 0x2#4 ∧
    (0x1#4 ≠ 0x0#4 ∧ 0xF#4 ≠ 0x0#4) := by decide

/-- O10, O12 to O18, O29, O30: a destination other than VF, and registers that are neither. -/
theorem test_witness_registers :
    (0x0#4 ≠ 0xF#4 ∧ 0x0#4 ≠ regVF ∧ 0xE#4 ≠ regVF) ∧ (∀ r ∈ [0x1#4, 0xE#4], r ≠ 0x0#4 ∧ r ≠ regVF) := by decide

/-- O18, O28: an input the host has fixed. -/
theorem test_witness_sampled_inputs :
    (drive State.reset 0x8001#16 0xA7#8).inputs = ⟨0x8001#16, 0xA7#8⟩ :: [] := by decide

/-- O22: the bytes on either side of a store that wraps. -/
theorem test_witness_bcd_frame :
    0xFFE < 4096 ∧ (∀ k < 3, 0xFFE ≠ (State.reset.setI 0x0FFF#16).ea k % 4096) ∧
    0x002 < 4096 ∧ (∀ k < 3, 0x002 ≠ (State.reset.setI 0x0FFF#16).ea k % 4096) := by decide

/-- O23, O24: registers at x and above it, and the bytes on either side of the block. -/
theorem test_witness_block_frame :
    (0xF#4).toNat ≤ (0xF#4).toNat ∧ (0x0#4).toNat ≤ (0x0#4).toNat ∧ ¬ (0x1#4).toNat ≤ (0x0#4).toNat ∧
    0xFFE < 4096 ∧ (∀ k ≤ (0xF#4).toNat, 0xFFE ≠ (State.reset.setI 0x0FFF#16).ea k % 4096) ∧
    0x00F < 4096 ∧ (∀ k ≤ (0xF#4).toNat, 0x00F ≠ (State.reset.setI 0x0FFF#16).ea k % 4096) := by decide

/-- O25, O26, O27: a running state at the instruction. -/
theorem test_witness_timer_steps :
    ((at200 0xF107).halt = false ∧ (at200 0xF107).fetchWord = wordXnn 0xF#4 0x1#4 0x07#8) ∧
    ((at200 0xF115).halt = false ∧ (at200 0xF115).fetchWord = wordXnn 0xF#4 0x1#4 0x15#8) ∧
    ((at200 0xF118).halt = false ∧ (at200 0xF118).fetchWord = wordXnn 0xF#4 0x1#4 0x18#8) := by decide

/-- O28: key 0 down and up. -/
theorem test_witness_key_skips :
    (drive State.reset 0x8001#16 0x00#8).keys.getLsbD ((State.reset.readV 0x0#4).toNat % 16) = true ∧
    (drive State.reset 0x8000#16 0x00#8).keys.getLsbD ((State.reset.readV 0x0#4).toNat % 16) = false := by decide

/-- O29: no key, the lowest key alone, the highest alone; a step that waits. -/
theorem test_witness_wait_for_key :
    (drive (at200 0xF50A) 0x0000#16 0x00#8).keys = 0#16 ∧ (drive (at200 0xF50A) 0x0001#16 0x00#8).keys ≠ 0#16 ∧
    (drive (at200 0xF50A) 0x8000#16 0x00#8).keys ≠ 0#16 ∧
    ((drive (at200 0xF50A) 0x0000#16 0x00#8).halt = false ∧
      (drive (at200 0xF50A) 0x0000#16 0x00#8).fetchWord = wordXnn 0xF#4 0x5#4 0x0A#8) := by decide

/-- O30: a pixel that is a target and one that is not. -/
theorem test_witness_sprite_hit :
    spriteHits (setM (State.reset.setI 0x0300#16) 0x300 0x80#8) 0x0#4 0x0#4 0x1#4 0 0 ∧
    ¬ spriteHits (setM (State.reset.setI 0x0300#16) 0x300 0x80#8) 0x0#4 0x0#4 0x1#4 1 0 := by
  unfold spriteHits
  exact ⟨by decide, by decide⟩

/-- O30: a collision, and a sprite of height 0 that has none. -/
theorem test_witness_sprite_collision :
    (∃ p q, spriteHits (setM ({ State.reset.setI 0x0300#16 with fb := litDisplay }) 0x300 0x80#8) 0x0#4 0x0#4 0x1#4 p q ∧
      ({ State.reset with fb := litDisplay } : State).pixel p q = true) ∧
    (¬ ∃ p q, spriteHits State.reset 0x0#4 0x0#4 0x0#4 p q ∧ State.reset.pixel p q = true) := by
  refine ⟨⟨0, 0, ?_, by decide⟩, ?_⟩
  · unfold spriteHits
    decide
  · rintro ⟨p, q, ⟨row, h, -⟩, -⟩
    exact absurd h (Nat.not_lt_zero row)

/-- O32. -/
theorem test_witness_step_runs :
    (at200 0x6A2B).halt = false ∧ decodeWord (at200 0x6A2B).fetchWord = .ok (.ldVxNn 0xA#4 0x2B#8) ∧
    (Instr.ldVxNn 0xA#4 0x2B#8).wellFormed = true ∧
    exec (.ldVxNn 0xA#4 0x2B#8) (at200 0x6A2B) = .next (((at200 0x6A2B).advancePc.writeV 0xA#4 0x2B#8).setResult .ok) := ⟨by decide, by decide, by decide, rfl⟩

/-- O33. -/
theorem test_witness_fetch_wraps :
    (State.reset.setPc 0x0FFF#16).pc.toNat % 4096 = 0xFFF ∧ (State.reset.setPc 0xFFFF#16).pc.toNat % 4096 = 0xFFF := by decide

/-- O34, O45. -/
theorem test_witness_halted :
    haltedState.halt = true := by decide

/-- O35: words of the families that have illegal ones. -/
theorem test_witness_illegal_word_a :
    ((at200 0x0000).halt = false ∧ (at200 0x0000).fetchWord = 0x0000#16 ∧ IllegalWord 0x0000#16) ∧
    ((at200 0x00E1).halt = false ∧ (at200 0x00E1).fetchWord = 0x00E1#16 ∧ IllegalWord 0x00E1#16) ∧
    ((at200 0x5001).halt = false ∧ (at200 0x5001).fetchWord = 0x5001#16 ∧ IllegalWord 0x5001#16) := ⟨⟨by decide, by decide, by unfold IllegalWord; decide⟩, ⟨by decide, by decide, by unfold IllegalWord; decide⟩, ⟨by decide, by decide, by unfold IllegalWord; decide⟩⟩

/-- O35: words of the families that have illegal ones. -/
theorem test_witness_illegal_word_b :
    ((at200 0x8008).halt = false ∧ (at200 0x8008).fetchWord = 0x8008#16 ∧ IllegalWord 0x8008#16) ∧
    ((at200 0x800F).halt = false ∧ (at200 0x800F).fetchWord = 0x800F#16 ∧ IllegalWord 0x800F#16) ∧
    ((at200 0x9001).halt = false ∧ (at200 0x9001).fetchWord = 0x9001#16 ∧ IllegalWord 0x9001#16) := ⟨⟨by decide, by decide, by unfold IllegalWord; decide⟩, ⟨by decide, by decide, by unfold IllegalWord; decide⟩, ⟨by decide, by decide, by unfold IllegalWord; decide⟩⟩

/-- O35: words of the families that have illegal ones. -/
theorem test_witness_illegal_word_c :
    ((at200 0xE000).halt = false ∧ (at200 0xE000).fetchWord = 0xE000#16 ∧ IllegalWord 0xE000#16) ∧
    ((at200 0xF066).halt = false ∧ (at200 0xF066).fetchWord = 0xF066#16 ∧ IllegalWord 0xF066#16) ∧
    ((at200 0xFFFF).halt = false ∧ (at200 0xFFFF).fetchWord = 0xFFFF#16 ∧ IllegalWord 0xFFFF#16) := ⟨⟨by decide, by decide, by unfold IllegalWord; decide⟩, ⟨by decide, by decide, by unfold IllegalWord; decide⟩, ⟨by decide, by decide, by unfold IllegalWord; decide⟩⟩

/-- O36. -/
theorem test_witness_legal_word :
    ¬ IllegalWord 0x00EE#16 ∧ ¬ IllegalWord 0xF065#16 ∧ decodeWord 0x800F#16 = .error (.unknownOpcode 0x800F#16) := by
  unfold IllegalWord
  decide

/-- O37. -/
theorem test_witness_timer_phase :
    ∃ t, (at200 0x8000).halt = false ∧ decodeWord (at200 0x8000).fetchWord = .ok (.ldVxVy 0x0#4 0x0#4) ∧
    exec (.ldVxVy 0x0#4 0x0#4) (at200 0x8000) = .next t ∧ t.halt = false := ⟨_, by decide, by decide, rfl, by decide⟩

/-- O38. -/
theorem test_witness_fatal_step :
    ∃ t, (at200 0x00EE).halt = false ∧ step (at200 0x00EE) = .next t ∧ t.halt = true := ⟨_, by decide, rfl, by decide⟩

/-- O39: P5a to P5c. -/
theorem test_witness_three_conditions :
    (∃ t, (at200 0x0000).halt = false ∧ step (at200 0x0000) = .next t ∧ IllegalWord (at200 0x0000).fetchWord) ∧
    (∃ t, (at200 0x00EE).halt = false ∧ step (at200 0x00EE) = .next t ∧ (at200 0x00EE).fetchWord = 0x00EE#16 ∧
      (at200 0x00EE).sp.val = 0) ∧
    (∃ t, (stacked (at200 0x2200) 16 0x0202#16).halt = false ∧ step (stacked (at200 0x2200) 16 0x0202#16) = .next t ∧
      (stacked (at200 0x2200) 16 0x0202#16).fetchWord.toNat / 4096 = 0x2 ∧
      (stacked (at200 0x2200) 16 0x0202#16).sp.val = 16) := by
  refine ⟨⟨_, by decide, rfl, ?_⟩, ⟨_, by decide, rfl, by decide, by decide⟩, ⟨_, by decide, rfl, by decide, by decide⟩⟩
  unfold IllegalWord
  decide

/-- O41, O43: a running state and a halted one. -/
theorem test_witness_invariant :
    State.reset.Inv ∧ haltedState.Inv ∧ (∃ t, step haltedState = .next t) ∧ ∃ t, step (at200 0x2300) = .next t := by
  refine ⟨⟨by decide, fun h => absurd h (by decide)⟩, ⟨by decide, fun _ => ⟨by decide, ?_⟩⟩, ⟨_, rfl⟩, ⟨_, rfl⟩⟩
  exact ⟨by decide, by decide⟩

/-- O46: the two ends of memory listed, and nothing listed; a list out of order and one beyond the end are refused. -/
theorem test_witness_canonical_memories :
    Memory.wf [(0x000, 0x01#8), (0xFFF, 0x02#8)] = true ∧ Memory.wf [] = true ∧
    Memory.wf [(0xFFF, 0x02#8), (0x000, 0x01#8)] = false ∧ Memory.wf [(0x1000, 0x01#8)] = false ∧
    (∀ a < 4096, Memory.lookup [] a = Memory.lookup [] a) := ⟨by decide, by decide, by decide, by decide, fun _ _ => rfl⟩

/-- O47: a MEM_INIT, and its last byte. -/
theorem test_witness_memInit :
    (List.replicate 4096 0xA5#8).length = 4096 ∧ 4095 < (List.replicate 4096 0xA5#8).length := by
  rw [List.length_replicate]
  decide

/-- O48, O53. -/
theorem test_witness_exec_answers :
    (∃ t, exec .ret (at200 0x00EE) = .next t) ∧ ∃ t, exec (.jpV0Nnn 0xFFF#12) (at200 0xBFFF) = .next t := ⟨⟨_, rfl⟩, ⟨_, rfl⟩⟩

/-- O49. -/
theorem test_witness_register_not_written :
    (∃ t, exec (.addVxVy 0x0#4 0x1#4) State.reset = .next t) ∧ mayWriteV (.addVxVy 0x0#4 0x1#4) 0x1#4 = false ∧
    (∃ t, exec (.ldVxMem 0xE#4) State.reset = .next t) ∧ mayWriteV (.ldVxMem 0xE#4) regVF = false := ⟨⟨_, rfl⟩, by decide, ⟨_, rfl⟩, by decide⟩

/-- O50: the byte after the digits, and an instruction that stores nothing. -/
theorem test_witness_byte_not_stored :
    (∃ t, exec (.ldBVx 0x0#4) State.reset = .next t) ∧ ¬ storesTo (.ldBVx 0x0#4) State.reset 0x003 ∧
    ¬ storesTo .cls State.reset 0xFFF := by
  refine ⟨⟨_, rfl⟩, ?_, fun h => h⟩
  unfold storesTo
  decide

/-- O51. -/
theorem test_witness_state_not_written :
    writesI .cls = false ∧ drawsOrClears .ret = false ∧ drawsOrClears .cls = true ∧ (∀ nnn, Instr.ret ≠ .callNnn nnn) ∧
    Instr.cls ≠ .ret ∧ (∀ x, Instr.cls ≠ .ldDtVx x) ∧ (∀ x, Instr.cls ≠ .ldStVx x) ∧
    ∃ t, exec .cls State.reset = .next t ∧ t.halt = false := ⟨by decide, by decide, by decide, fun _ h => (nomatch h), by decide, fun _ h => (nomatch h), fun _ h => (nomatch h), _, rfl, by decide⟩

/-- O52: the same keys with another random byte, and the other way round. -/
theorem test_witness_same_inputs :
    (∃ t, exec (.skpVx 0x0#4) (drive State.reset 0x8001#16 0xA7#8) = .next t) ∧
    (usesKeys (.skpVx 0x0#4) = true ∧
      State.keys { drive State.reset 0x8001#16 0xA7#8 with inputs := [⟨0x8001#16, 0x00#8⟩], tick := 7 } =
        (drive State.reset 0x8001#16 0xA7#8).keys) ∧
    (usesRnd (.rndVxNn 0x0#4 0xFF#8) = true ∧
      State.rnd { drive State.reset 0x8001#16 0xA7#8 with inputs := [⟨0x0000#16, 0xA7#8⟩], tick := 7 } =
        (drive State.reset 0x8001#16 0xA7#8).rnd) := ⟨⟨_, rfl⟩, by decide, by decide⟩

/-- O54. -/
theorem test_witness_store_seen :
    ((at200 0xF155).setI 0x0202#16).halt = false ∧
    ((at200 0xF155).setI 0x0202#16).fetchWord = wordXnn 0xF#4 0x1#4 0x55#8 ∧ 1 ≤ (0x1#4).toNat ∧
    ((at200 0xF155).setI 0x0202#16).i.toNat % 4096 = (((at200 0xF155).setI 0x0202#16).pc.toNat + 2) % 4096 := by decide

/-- O54: the largest block, at the last word of memory. -/
theorem test_witness_store_seen_wraps :
    ((atPc 0x0FFE#16 0xFF55).setI 0xF000#16).halt = false ∧
    ((atPc 0x0FFE#16 0xFF55).setI 0xF000#16).fetchWord = wordXnn 0xF#4 0xF#4 0x55#8 ∧ 1 ≤ (0xF#4).toNat ∧
    ((atPc 0x0FFE#16 0xFF55).setI 0xF000#16).i.toNat % 4096 = (((atPc 0x0FFE#16 0xFF55).setI 0xF000#16).pc.toNat + 2) % 4096 := by decide

/-- O55: and a first draw without a collision. -/
theorem test_witness_draw_twice :
    0x0#4 ≠ regVF ∧ 0xE#4 ≠ regVF ∧
    (∃ t, exec (.drwVxVyN 0x0#4 0x0#4 0x1#4) (setM (State.reset.setI 0x0300#16) 0x300 0x80#8) = .next t ∧ t.readV regVF = 0x00#8) := ⟨by decide, by decide, _, rfl, by decide⟩

/-- O55, log 16: V-DR2 and then V-DR1, two equal draws of which the first finds every target on; by V-DR1 the second
reports no collision. -/
theorem test_witness_draw_over_lit_targets :
    ∃ t u, exec (.drwVxVyN 0x0#4 0x0#4 0x1#4) (setM ({ State.reset.setI 0x0300#16 with fb := vdr1Display }) 0x300 0xF0#8) = .next t ∧
    exec (.drwVxVyN 0x0#4 0x0#4 0x1#4) t = .next u ∧ t.readV regVF = 0x01#8 ∧ t.fb = Display.blank ∧
    u.readV regVF = 0x00#8 ∧ u.fb = vdr1Display := ⟨_, _, rfl, rfl, by decide, by decide, by decide, by decide⟩

/-- O56. -/
theorem test_witness_decode_encode :
    (Instr.sysNnn 0xFFF#12).wellFormed = true ∧ (Instr.shlVx 0xF#4 0xF#4).wellFormed = true ∧
    decodeWord 0xFF65#16 = .ok (.ldVxMem 0xF#4) := by decide

/-- O58. -/
theorem test_witness_placed_word :
    0x0000 < 65536 ∧ 0xFFFF < 65536 ∧ decodeTableWord 16 0x00E0 = some .cls := by decide

/-- O59: the largest ROM, its last byte, the empty one, and the bytes on either side. -/
theorem test_witness_program_fits :
    (List.replicate 3584 0x12#8).length ≤ 3584 ∧ 3583 < (List.replicate 3584 0x12#8).length ∧ ([] : List Byte).length ≤ 3584 ∧
    (0x1FF < 4096 ∧ 0x1FF < 0x200) ∧ (0x201 < 4096 ∧ 0x200 + [0x12#8].length ≤ 0x201) := ⟨by rw [List.length_replicate], by rw [List.length_replicate]; decide, by decide, by decide, by decide⟩

end Sys2Proof.Tests
end

section
/-! Proofs for the family of spec/10_state.md: which state each instruction writes (R22 to R37), where PC goes (R27), that
DIRTY and ST are never read (R40), and that every MEM_INIT is a launch state (R41). -/

namespace Sys2Proof.Machine

variable {s t : State} {i : Instr}

/-! ### What an instruction can do to the state, said once -/

/-- The vector `v` holds what `s` held in every register that the table of R22 does not list for `i`. -/
def KeepsUnlistedV (i : Instr) (s : State) (v : Vector Byte 16) : Prop :=
  ∀ q, mayWriteV i q = false → State.readV { s with v := v } q = s.readV q

/-- The shapes of the state an instruction leaves: a fatal entry, or `s` with no field changed but the listed ones. -/
inductive Effect (s : State) : Instr → State → Prop where
  | fatal {i : Instr} (c : Cause) (w : Word) (hdraw : drawsOrClears i = false) : Effect s i (s.raiseFatal c w)
  | regs {i : Instr} (v : Vector Byte 16) (pc : Word) (r : Option StepResult) (hv : KeepsUnlistedV i s v)
      (hdraw : drawsOrClears i = false) : Effect s i { s with v := v, pc := pc, result := r }
  | index {i : Instr} (a pc : Word) (r : Option StepResult) (hindex : writesI i = true)
      (hdraw : drawsOrClears i = false) : Effect s i { s with i := a, pc := pc, result := r }
  | storeBcd (x : Nibble) (m : Memory) (pc : Word) (r : Option StepResult) :
      Effect s (.ldBVx x) { s with mem := m, pc := pc, result := r }
  | storeBlock (x : Nibble) (m : Memory) (pc : Word) (r : Option StepResult) :
      Effect s (.ldMemVx x) { s with mem := m, pc := pc, result := r }
  | ret (p : Fin 17) (pc : Word) (r : Option StepResult) : Effect s .ret { s with sp := p, pc := pc, result := r }
  | call (nnn : Imm12) (k : Vector Word 16) (p : Fin 17) (pc : Word) (r : Option StepResult) :
      Effect s (.callNnn nnn) { s with stack := k, sp := p, pc := pc, result := r }
  | delayTimer (x : Nibble) (b : Byte) (pc : Word) (r : Option StepResult) :
      Effect s (.ldDtVx x) { s with dt := b, pc := pc, result := r }
  | soundTimer (x : Nibble) (b : Byte) (pc : Word) (r : Option StepResult) :
      Effect s (.ldStVx x) { s with st := b, pc := pc, result := r }
  | display {i : Instr} (v : Vector Byte 16) (d : Display) (pc : Word) (r : Option StepResult)
      (hv : KeepsUnlistedV i s v) (hdraw : drawsOrClears i = true) :
      Effect s i { s with v := v, fb := d, dirty := true, pc := pc, result := r }

/-- An instruction that changes PC alone. -/
theorem Effect.pcOnly (pc : Word) (r : Option StepResult) (hdraw : drawsOrClears i = false) :
    Effect s i { s with pc := pc, result := r } :=
  .regs s.v pc r (fun _ _ => rfl) hdraw

/-- A completed skip changes PC alone. -/
theorem Effect.skip {c : Bool} (h : (s.advancePc.skipIf c).done = .next t) (hdraw : drawsOrClears i = false) :
    Effect s i t := by
  rw [State.skipIf_eq] at h
  cases h
  exact .pcOnly _ _ hdraw

/-- A completed block store changes memory and PC alone. -/
theorem eq_of_writeBytes_done {a : Nat} {l : List Byte} (h : (s.advancePc.writeBytes a l).done = .next t) :
    t = { s with mem := (s.advancePc.writeBytes a l).mem, pc := s.pc + 2#16, result := some .ok } := by
  rw [State.writeBytes_eq] at h
  cases h
  rfl

/-- A completed block load changes registers and PC alone. -/
theorem eq_of_loadRegs_done {a k : Nat} (h : (s.advancePc.loadRegs a k).done = .next t) :
    t = { s with v := (s.advancePc.loadRegs a k).v, pc := s.pc + 2#16, result := some .ok } := by
  rw [State.loadRegs_eq] at h
  cases h
  rfl

theorem readV_writeV_of_beq_eq_false {q x : Nibble} (b : Byte) (h : (q == x) = false) :
    (s.writeV x b).readV q = s.readV q := by
  simp [ne_of_beq_false h]

theorem readV_writeFlag_writeV_of_or_eq_false {q x : Nibble} (b f : Byte) (h : (q == x || q == regVF) = false) :
    ((s.writeV x b).writeFlag f).readV q = s.readV q := by
  obtain ⟨hx, hf⟩ := Bool.or_eq_false_iff.1 h
  exact (readV_writeV_of_beq_eq_false f hf).trans (readV_writeV_of_beq_eq_false b hx)

/-- The block load of V0 to Vx keeps the registers above Vx. -/
theorem readV_loadRegs_of_not_mayWriteV {q x : Nibble} (a : Nat) (h : mayWriteV (.ldVxMem x) q = false) :
    (s.loadRegs a (x.toNat + 1)).readV q = s.readV q := by
  have hlt : ¬ q.toNat < x.toNat + 1 := by simpa [mayWriteV, Nat.lt_succ_iff] using h
  rw [State.readV_loadRegs _ _ _ x.isLt, if_neg hlt]

/-- What every instruction can do to the state. -/
theorem effect_of_exec (h : exec i s = .next t) : Effect s i t := by
  cases i with
  | sysNnn nnn => cases h; exact .fatal _ _ rfl
  | ret =>
    obtain ⟨-, e⟩ | ⟨-, p, -, e⟩ := exec_ret s <;> cases e.symm.trans h
    · exact .fatal _ _ rfl
    · exact .ret p _ _
  | callNnn nnn =>
    obtain ⟨-, e⟩ | ⟨-, k, p, -, -, e⟩ := exec_callNnn s nnn <;> cases e.symm.trans h
    · exact .fatal _ _ rfl
    · exact .call nnn k p _ _
  | ldVxK x =>
    obtain ⟨-, e⟩ | ⟨-, k, -, e⟩ := exec_ldVxK s x <;> cases e.symm.trans h
    · exact .pcOnly _ _ rfl
    · exact .regs _ _ _ (fun q => readV_writeV_of_beq_eq_false (s := s) _) rfl
  | jpNnn | jpV0Nnn => cases h; exact .pcOnly _ _ rfl
  | seVxNn | sneVxNn | seVxVy | sneVxVy | skpVx | sknpVx => exact .skip h rfl
  | ldVxNn | addVxNn | ldVxVy | orVxVy | andVxVy | xorVxVy | rndVxNn | ldVxDt =>
    cases h
    exact .regs _ _ _ (fun q => readV_writeV_of_beq_eq_false (s := s) _) rfl
  | addVxVy | subVxVy | subnVxVy | shrVx | shlVx =>
    cases h
    exact .regs _ _ _ (fun q => readV_writeFlag_writeV_of_or_eq_false (s := s) _ _) rfl
  | ldVxMem x =>
    cases eq_of_loadRegs_done h
    exact .regs _ _ _ (fun q => readV_loadRegs_of_not_mayWriteV (s := s.advancePc) (s.ea 0)) rfl
  | ldINnn | addIVx | ldFVx => cases h; exact .index _ _ _ rfl rfl
  | ldBVx x => cases eq_of_writeBytes_done h; exact .storeBcd x _ _ _
  | ldMemVx x => cases eq_of_writeBytes_done h; exact .storeBlock x _ _ _
  | ldDtVx x => cases h; exact .delayTimer x _ _ _
  | ldStVx x => cases h; exact .soundTimer x _ _ _
  | cls => cases h; exact .display _ _ _ _ (fun _ _ => rfl) rfl
  | drwVxVyN => cases h; exact .display _ _ _ _ (fun q => readV_writeV_of_beq_eq_false (s := s) _) rfl

/-- Settles O51: each shape of `Effect` shows which fields it keeps. -/
theorem whichInstructionsWriteWhichState : Obligations.WhichInstructionsWriteWhichState := by
  intro i s t h
  cases effect_of_exec h with
  | index _ _ _ hindex hdraw => simp [SameLatch, hindex, hdraw]
  | fatal _ _ hdraw | regs _ _ _ _ hdraw | display _ _ _ _ _ hdraw => simp [SameLatch, hdraw]
  | _ => simp [SameLatch, drawsOrClears]

/-- Settles O49: the shapes of `Effect` that change registers keep the unlisted ones. -/
theorem onlyListedRegistersAreWritten : Obligations.OnlyListedRegistersAreWritten := by
  intro i s t q h hq
  cases effect_of_exec h with
  | regs _ _ _ hv | display _ _ _ _ hv => exact hv q hq
  | _ => rfl

/-! ### Where PC goes (R27) -/

theorem zextNnn_eq_ofNat (nnn : Imm12) : zextNnn nnn = BitVec.ofNat 16 nnn.toNat :=
  (BitVec.ofNat_toNat 16 nnn).symm

/-- The target of JP V0: the unbounded sum, modulo 65536. -/
theorem zextNnn_add_zextByte (nnn : Imm12) (b : Byte) :
    zextNnn nnn + zextByte b = BitVec.ofNat 16 (nnn.toNat + b.toNat) := by
  rw [BitVec.ofNat_add, BitVec.ofNat_toNat, BitVec.ofNat_toNat, zextNnn, zextByte]

/-- A skip lands where `skipTo` says. -/
theorem pc_of_skip {c : Bool} {p : Prop} [Decidable p] (h : (s.advancePc.skipIf c).done = .next t)
    (hc : c = true ↔ p) : t.pc = skipTo s.pc p := by
  cases h
  by_cases hp : p
  · simp [State.skipIf, skipTo, hp, hc.2 hp, BitVec.add_assoc]
  · have hc : ¬ c = true := fun h => hp (hc.1 h)
    simp [State.skipIf, skipTo, hp, hc]

/-- Settles O48: by the instruction; only RET, CALL and LD Vx,K have more than one way to end. -/
theorem pcAfterEveryInstruction : Obligations.PcAfterEveryInstruction := by
  intro i s t h
  cases i with
  | ret =>
    obtain ⟨hsp, e⟩ | ⟨hsp, p, -, e⟩ := exec_ret s <;> cases e.symm.trans h
    · exact (if_pos hsp).symm
    · exact (if_neg hsp).symm
  | callNnn nnn =>
    obtain ⟨hsp, e⟩ | ⟨hsp, k, p, -, -, e⟩ := exec_callNnn s nnn <;> cases e.symm.trans h
    · exact (if_pos hsp).symm
    · exact (zextNnn_eq_ofNat nnn).trans (if_neg hsp.ne).symm
  | ldVxK x =>
    obtain ⟨hk, e⟩ | ⟨hk, k, -, e⟩ := exec_ldVxK s x <;> cases e.symm.trans h
    · exact (BitVec.add_sub_cancel s.pc 2#16).trans (if_pos hk).symm
    · exact (if_neg hk).symm
  | jpNnn nnn => cases h; exact zextNnn_eq_ofNat nnn
  | jpV0Nnn nnn => cases h; exact zextNnn_add_zextByte nnn (s.readV 0x0#4)
  | seVxNn | sneVxNn | seVxVy | sneVxVy => exact pc_of_skip h decide_eq_true_iff
  | skpVx => exact pc_of_skip h Iff.rfl
  | sknpVx => exact pc_of_skip h (Bool.not_eq_true' _).to_iff
  | ldBVx | ldMemVx => exact congrArg State.pc (eq_of_writeBytes_done h)
  | ldVxMem => exact congrArg State.pc (eq_of_loadRegs_done h)
  | _ => cases h; rfl

/-! ### DIRTY and ST are never read (R40) -/

/-- The state with another DIRTY and another ST. -/
def State.setUnread (s : State) (d : Bool) (b : Byte) : State := { s with dirty := d, st := b }

variable (d : Bool) (b : Byte)

@[simp] theorem State.keys_setUnread : (s.setUnread d b).keys = s.keys := rfl

theorem State.push_setUnread (w : Word) : (s.setUnread d b).push w = (s.push w).map (·.setUnread d b) := by
  by_cases h : s.sp.val < 16 <;> simp [State.push, State.setUnread, h]

theorem State.pop_setUnread : (s.setUnread d b).pop = s.pop.map (Prod.map id (·.setUnread d b)) := by
  by_cases h : s.sp.val = 0 <;> simp [State.pop, State.stackAt, State.setUnread, h]

theorem State.writeBytes_setUnread (a : Nat) (l : List Byte) :
    (s.setUnread d b).writeBytes a l = (s.writeBytes a l).setUnread d b := by
  induction l generalizing s a with
  | nil => rfl
  | cons v l ih => exact ih (s := s.writeByte a v) (a + 1)

theorem State.loadRegs_setUnread (a k : Nat) : (s.setUnread d b).loadRegs a k = (s.loadRegs a k).setUnread d b := by
  induction k with
  | zero => rfl
  | succ k ih => rw [State.loadRegs, ih]; rfl

theorem State.skipIf_setUnread (c : Bool) : (s.setUnread d b).skipIf c = (s.skipIf c).setUnread d b := by
  cases c <;> rfl

variable {d b}

theorem execRet_setUnread (h : execRet s = .next t) : execRet (s.setUnread d b) = .next (t.setUnread d b) := by
  have pop : (s.setUnread d b).advancePc.pop = _ := State.pop_setUnread (s := s.advancePc) d b
  rw [execRet] at h ⊢
  rw [pop]
  cases hp : s.advancePc.pop <;> rw [hp] at h <;> cases h <;> rfl

theorem execCallNnn_setUnread {nnn : Imm12} (h : execCallNnn nnn s = .next t) :
    execCallNnn nnn (s.setUnread d b) = .next (t.setUnread d b) := by
  have push : (s.setUnread d b).advancePc.push (s.setUnread d b).advancePc.pc = _ :=
    State.push_setUnread (s := s.advancePc) d b s.advancePc.pc
  rw [execCallNnn] at h ⊢
  rw [push]
  cases hp : s.advancePc.push s.advancePc.pc <;> rw [hp] at h <;> cases h <;> rfl

theorem execLdVxK_setUnread {x : Nibble} (h : execLdVxK x s = .next t) :
    execLdVxK x (s.setUnread d b) = .next (t.setUnread d b) := by
  rw [execLdVxK] at h ⊢
  rw [State.keys_setUnread]
  cases hk : lowestKey s.keys <;> rw [hk] at h <;> cases h <;> rfl

/-- With another DIRTY and ST in place, an instruction leaves the same state but for DIRTY and ST. -/
theorem exec_setUnread (h : exec i s = .next t) :
    ∃ d' b', exec i (s.setUnread d b) = .next (t.setUnread d' b') := by
  cases i with
  | ret => exact ⟨d, b, execRet_setUnread h⟩
  | callNnn => exact ⟨d, b, execCallNnn_setUnread h⟩
  | ldVxK => exact ⟨d, b, execLdVxK_setUnread h⟩
  | seVxNn | sneVxNn | seVxVy | sneVxVy | skpVx | sknpVx =>
    cases h
    exact ⟨d, b, congrArg State.done (State.skipIf_setUnread (s := s.advancePc) d b _)⟩
  | ldBVx | ldMemVx =>
    cases h
    exact ⟨d, b, congrArg State.done (State.writeBytes_setUnread (s := s.advancePc) d b _ _)⟩
  | ldVxMem =>
    cases h
    exact ⟨d, b, congrArg State.done (State.loadRegs_setUnread (s := s.advancePc) d b _ _)⟩
  | _ => cases h; exact ⟨_, _, rfl⟩

/-- Settles O53: the state before is the same but for DIRTY and ST, so `exec_setUnread` gives the state after. -/
theorem dirtyAndSoundTimerAreNeverRead : Obligations.DirtyAndSoundTimerAreNeverRead := by
  intro i s t d b h
  obtain ⟨d', b', e⟩ := exec_setUnread (d := d) (b := b) h
  exact ⟨t.setUnread d' b', e, rfl⟩

/-! ### Memory at launch (R33, R41) -/

/-- The launch state reads as the MEM_INIT it was given. -/
theorem readByte_launch {l : List Byte} (hl : l.length ≤ 4096) (a : Nat) (h : a < l.length) :
    (State.launch l).readByte a = l[a] := by
  have hit := State.readByte_writeBytes_hit State.reset 0 a l hl h
  rwa [Nat.zero_add] at hit

theorem launch_mem_wf (l : List Byte) : (State.launch l).mem.wf = true :=
  State.writeBytes_mem_wf 0 l rfl

/-- Inside the address space a byte is read where it is listed. -/
theorem State.readByte_of_lt {a : Nat} (ha : a < 4096) : s.readByte a = s.mem.read a :=
  congrArg s.mem.read (Nat.mod_eq_of_lt ha)

/-- Every content of the address space is the memory of some launch state. -/
theorem exists_memory_of_content (f : Nat → Byte) : ∃ m : Memory, m.wf = true ∧ ∀ a < 4096, m.read a = f a := by
  refine ⟨(State.launch ((List.range 4096).map f)).mem, launch_mem_wf _, fun a ha => ?_⟩
  rw [← State.readByte_of_lt ha, readByte_launch (by simp) a (by simpa using ha)]
  simp

/-- Settles O47: a launch lists its MEM_INIT byte by byte, and reset lists nothing. -/
theorem everyMemInitIsAMemory : Obligations.EveryMemInitIsAMemory := by
  refine ⟨exists_memory_of_content, fun a ha => State.readByte_of_lt ha, fun l hl => ?_⟩
  refine ⟨fun a h => readByte_launch hl.le a h, launch_mem_wf l, ?_⟩
  rw [State.launch, State.writeBytes_eq]
  exact ⟨rfl, rfl, fun _ => rfl, rfl, ⟨rfl, rfl⟩, ⟨rfl, rfl⟩, ⟨rfl, rfl⟩, ⟨rfl, rfl, rfl⟩, rfl, rfl, rfl⟩

/-! ### The host's present (R38) -/

/-- Settles O44: `present` is the one update DIRTY := 0. -/
theorem presentClearsDirtyOnly : Obligations.PresentClearsDirtyOnly := fun s =>
  have frame : OnlyRegsAndPc { s with dirty := false } (s.hostAct .present) :=
    ⟨rfl, ⟨rfl, rfl⟩, ⟨rfl, rfl⟩, fun _ => rfl, ⟨rfl, rfl⟩, ⟨rfl, rfl, rfl⟩, rfl, rfl, rfl⟩
  ⟨rfl, fun _ => rfl, rfl, frame, rfl⟩

end Sys2Proof.Machine
end

section
/-! Proofs for the family of spec/20_memory.md: the fetch is big-endian and every address is taken modulo 4096 (R62, R66),
only LD B,Vx and LD [I],Vx store (R61), and a store is seen by the next fetch (R74). -/

namespace Sys2Proof.Machine

variable {s t : State} {i : Instr}

/-! ### The fetch (R62, R66) -/

@[simp] theorem lowByte_wordOfBytes (hi lo : Byte) : lowByte (wordOfBytes hi lo) = lo :=
  BitVec.eq_of_toNat_eq (by rw [toNat_lowByte, toNat_wordOfBytes]; omega)

/-- Settles O33: by the value of a word put together from two bytes, and the read-after-write law of memory. -/
theorem fetchIsBigEndianModulo4096 : Obligations.FetchIsBigEndianModulo4096 := by
  intro s
  refine ⟨?_, fun hpc => ?_, fun _ => rfl, fun a j b => State.readByte_writeByte s a j b⟩
  · rw [State.fetchWord, toNat_wordOfBytes, Nat.mul_comm]
    rfl
  · have hwrap : (s.pc.toNat + 1) % 4096 = 0x000 := by omega
    rw [State.fetchWord, lowByte_wordOfBytes, State.readByte, hwrap]

/-! ### What a completed store leaves in memory (R61) -/

/-- Memory after a completed store is memory with the list of bytes written. -/
theorem readByte_of_writeBytes_done {a : Nat} {l : List Byte} (h : (s.advancePc.writeBytes a l).done = .next t)
    (j : Nat) : t.readByte j = (s.advancePc.writeBytes a l).readByte j := by
  cases h
  rfl

/-- A completed store of at most 4096 bytes keeps every byte whose address is not among its own. -/
theorem readByte_of_not_stored {l : List Byte} (h : (s.advancePc.writeBytes (s.ea 0) l).done = .next t)
    (hl : l.length ≤ 4096) {a : Nat} (ha : a < 4096) (hmiss : ∀ k < l.length, a ≠ s.ea k % 4096) :
    t.readByte a = s.readByte a := by
  rw [readByte_of_writeBytes_done h]
  refine (State.readByte_writeBytes s.advancePc (s.ea 0) a l hl).2 fun k hk => ?_
  rw [Nat.mod_eq_of_lt ha]
  exact hmiss k hk

/-- Settles O50: two shapes of `Effect` change memory, and each of the two instructions stores its own bytes. -/
theorem onlyBcdAndBlockStoreWriteMemory : Obligations.OnlyBcdAndBlockStoreWriteMemory := by
  intro i s t h a ha hmiss
  cases effect_of_exec h with
  | storeBcd x => exact readByte_of_not_stored h (by simp [bcdDigits]) ha fun k hk e => hmiss ⟨k, hk, e⟩
  | storeBlock x =>
    have hlen := s.regList_length (x.toNat + 1)
    have hx := x.isLt
    exact readByte_of_not_stored h (by omega) ha fun k hk e => hmiss ⟨k, by omega, e⟩
  | _ => rfl

/-! ### A store is seen by the next fetch (R74) -/

/-- A running step of a word that decodes is the instruction and then the end of the step. -/
theorem step_of_exec (hrun : s.halt = false) (hdec : decodeWord s.fetchWord = .ok i) (h : exec i s = .next t) :
    step s = .next t.timerPhase.consumeInputs := by
  simp [step, hrun, hdec, h, finishStep]

/-- The end of a step changes neither PC nor memory. -/
theorem fetchWord_consumeInputs_timerPhase : s.timerPhase.consumeInputs.fetchWord = s.fetchWord := by
  cases hh : s.halt with
  | true => rw [State.timerPhase_of_halted s hh]; rfl
  | false => rw [State.timerPhase_of_running s hh]; rfl

/-- LD [I],Vx leaves `V[k]` at every address congruent to `I + k`, for each `k` up to `x` (R195). -/
theorem readByte_of_exec_ldMemVx {x : Nibble} (h : exec (.ldMemVx x) s = .next t) {k j : Nat} (hk : k ≤ x.toNat)
    (hj : j % 4096 = (s.i.toNat + k) % 4096) : t.readByte j = s.readV (BitVec.ofNat 4 k) := by
  have hx := x.isLt
  have hlen := s.regList_length (x.toNat + 1)
  have hget := (State.readByte_writeBytes s.advancePc (s.ea 0) j (s.regList (x.toNat + 1)) (by omega)).1 k (by omega) hj
  rw [readByte_of_writeBytes_done h, hget, State.regList_get]

/-- A block store of V0 and V1 at least that starts at the next instruction puts V0 V1 where the next fetch reads. -/
theorem fetchWord_of_exec_ldMemVx {x : Nibble} (h : exec (.ldMemVx x) s = .next t) (hx : 1 ≤ x.toNat)
    (hi : s.i.toNat % 4096 = (s.pc.toNat + 2) % 4096) :
    t.fetchWord = wordOfBytes (s.readV 0x0#4) (s.readV 0x1#4) := by
  have hpc : t.pc.toNat = (s.pc.toNat + 2) % 65536 := by
    rw [pcAfterEveryInstruction _ s t h]
    exact BitVec.toNat_add s.pc 2#16
  rw [State.fetchWord, readByte_of_exec_ldMemVx h (Nat.zero_le _) (by omega), readByte_of_exec_ldMemVx h hx (by omega)]

/-- Settles O54: the step runs the block store, and the end of the step keeps what the next fetch reads. -/
theorem storesAreSeenByTheNextFetch : Obligations.StoresAreSeenByTheNextFetch := by
  intro x s hrun hword hx hi
  have hdec : decodeWord s.fetchWord = .ok (.ldMemVx x) := hword ▸ Laws.RoundTrip.ldMemVx x rfl
  refine ⟨_, step_of_exec hrun hdec rfl, ?_⟩
  rw [fetchWord_consumeInputs_timerPhase]
  exact fetchWord_of_exec_ldMemVx rfl hx hi

end Sys2Proof.Machine
end

section
/-! Proofs for the family of spec/30_encoding.md: every word is put together from its fields (R91, R92), the decoder reads
a word as the one instruction it encodes or refuses it (R94, R95), and the words it refuses, with those of SYS, are the
illegal ones (R101). -/

namespace Sys2Proof.Machine

variable {w : Word} {op n : Nibble} {nn : Byte}

/-! ### The vectors of the opcode map -/

/-- Settles O57: the decoder evaluated on each of the thirteen words. -/
theorem wordsOfTheManualDecode : Obligations.WordsOfTheManualDecode := by
  unfold Obligations.WordsOfTheManualDecode
  decide

/-! ### A word is its fields put together, in each of the layouts of R92 -/

theorem wordNnn_of_fieldOp (hop : (fieldOp w).toNat = op.toNat) : wordNnn op (fieldNnn w) = w := by
  rw [toNat_fieldOp] at hop
  refine BitVec.eq_of_toNat_eq ?_
  rw [toNat_wordNnn, toNat_fieldNnn]
  omega

theorem wordXnn_of_fieldOp_fieldNn (hop : (fieldOp w).toNat = op.toNat) (hnn : (fieldNn w).toNat = nn.toNat) :
    wordXnn op (fieldX w) nn = w := by
  rw [toNat_fieldOp] at hop
  rw [toNat_fieldNn] at hnn
  refine BitVec.eq_of_toNat_eq ?_
  rw [toNat_wordXnn, toNat_fieldX]
  omega

theorem wordXyn_of_fieldOp_fieldN (hop : (fieldOp w).toNat = op.toNat) (hn : (fieldN w).toNat = n.toNat) :
    wordXyn op (fieldX w) (fieldY w) n = w := by
  rw [toNat_fieldOp] at hop
  rw [toNat_fieldN] at hn
  refine BitVec.eq_of_toNat_eq ?_
  rw [toNat_wordXyn, toNat_fieldX, toNat_fieldY]
  omega

/-! ### The illegal words by their fields (R101) -/

theorem toNat_div_4096_eq_fieldOp (w : Word) : w.toNat / 4096 = (fieldOp w).toNat := by
  rw [toNat_fieldOp]
  omega

/-- A word of family 0 is a given word of that family exactly if its field `nnn` is that word's. -/
theorem eq_wordNnn_zero_iff (hop : (fieldOp w).toNat = 0x0) (nnn : Imm12) : w = wordNnn 0x0#4 nnn ↔ fieldNnn w = nnn := by
  constructor
  · rintro rfl
    exact fieldNnn_wordNnn _ _
  · rintro rfl
    exact (wordNnn_of_fieldOp hop).symm

/-- The table of illegal words, read off the fields the decoder looks at. -/
theorem illegalWord_iff (w : Word) : IllegalWord w ↔
    ((fieldOp w).toNat = 0x0 ∧ fieldNnn w ≠ 0x0E0#12 ∧ fieldNnn w ≠ 0x0EE#12) ∨
    ((fieldOp w).toNat = 0x5 ∧ (fieldN w).toNat ≠ 0) ∨
    ((fieldOp w).toNat = 0x8 ∧ (fieldN w).toNat ∈ [0x8, 0x9, 0xA, 0xB, 0xC, 0xD, 0xF]) ∨
    ((fieldOp w).toNat = 0x9 ∧ (fieldN w).toNat ≠ 0) ∨
    ((fieldOp w).toNat = 0xE ∧ (fieldNn w).toNat ≠ 0x9E ∧ (fieldNn w).toNat ≠ 0xA1) ∨
    ((fieldOp w).toNat = 0xF ∧
      (fieldNn w).toNat ∉ [0x07, 0x0A, 0x15, 0x18, 0x1E, 0x29, 0x33, 0x55, 0x65]) := by
  have family0 : ((fieldOp w).toNat = 0x0 ∧ w ≠ 0x00E0#16 ∧ w ≠ 0x00EE#16) ↔
      (fieldOp w).toNat = 0x0 ∧ fieldNnn w ≠ 0x0E0#12 ∧ fieldNnn w ≠ 0x0EE#12 :=
    and_congr_right fun hop =>
      and_congr (eq_wordNnn_zero_iff hop 0x0E0#12).not (eq_wordNnn_zero_iff hop 0x0EE#12).not
  rw [← family0, toNat_fieldN, toNat_fieldNn, ← toNat_div_4096_eq_fieldOp]
  rfl

/-- Of the words that encode an instruction, those of SYS alone are illegal. -/
theorem illegalWord_encode_iff {i : Instr} (hwf : i.wellFormed = true) : IllegalWord (encode i) ↔ isSys i = true := by
  cases i with
  | sysNnn nnn => simpa [illegalWord_iff, encode, isSys, Instr.wellFormed, sysFieldOk] using hwf
  | cls | ret => unfold IllegalWord; decide
  | _ => simp [illegalWord_iff, encode, isSys]

/-! ### How the decoder reads a word (R94) -/

/-- The answers of the decoder to the word `w` that are right: the well-formed instruction whose encoding is `w`, or the
refusal of an illegal `w` by its own name. -/
inductive Reading (w : Word) : Except DecodeError Instr → Prop where
  | instr {i : Instr} (hwf : i.wellFormed = true) (henc : encode i = w) : Reading w (.ok i)
  | refusal (hill : IllegalWord w) : Reading w (.error (.unknownOpcode w))

theorem reading_decodeFamily0 (hop : (fieldOp w).toNat = 0x0) : Reading w (.ok (decodeFamily0 (fieldNnn w))) := by
  unfold decodeFamily0
  split_ifs with hcls hret
  · exact .instr rfl ((eq_wordNnn_zero_iff hop 0x0E0#12).2 hcls).symm
  · exact .instr rfl ((eq_wordNnn_zero_iff hop 0x0EE#12).2 hret).symm
  · exact .instr (by simp [Instr.wellFormed, sysFieldOk, hcls, hret]) (wordNnn_of_fieldOp hop)

theorem reading_decodeFamily8 (hop : (fieldOp w).toNat = 0x8) :
    Reading w (decodeFamily8 w (fieldX w) (fieldY w) (fieldN w)) := by
  unfold decodeFamily8
  split
  case h_10 =>
    have hlt := (fieldN w).isLt
    have hn : (fieldN w).toNat ∈ [0x8, 0x9, 0xA, 0xB, 0xC, 0xD, 0xF] := by
      simp only [List.mem_cons, List.not_mem_nil, imp_false] at *
      omega
    exact .refusal ((illegalWord_iff w).2 (.inr (.inr (.inl ⟨hop, hn⟩))))
  all_goals exact .instr rfl (wordXyn_of_fieldOp_fieldN hop ‹_›)

theorem reading_decodeFamilyE (hop : (fieldOp w).toNat = 0xE) :
    Reading w (decodeFamilyE w (fieldX w) (fieldNn w)) := by
  unfold decodeFamilyE
  split
  case h_3 hskp hsknp =>
    exact .refusal ((illegalWord_iff w).2 (.inr (.inr (.inr (.inr (.inl ⟨hop, hskp, hsknp⟩))))))
  all_goals exact .instr rfl (wordXnn_of_fieldOp_fieldNn hop ‹_›)

theorem reading_decodeFamilyF (hop : (fieldOp w).toNat = 0xF) :
    Reading w (decodeFamilyF w (fieldX w) (fieldNn w)) := by
  unfold decodeFamilyF
  split
  case h_10 =>
    have hnn : (fieldNn w).toNat ∉ [0x07, 0x0A, 0x15, 0x18, 0x1E, 0x29, 0x33, 0x55, 0x65] := by simp_all
    exact .refusal ((illegalWord_iff w).2 (.inr (.inr (.inr (.inr (.inr ⟨hop, hnn⟩))))))
  all_goals exact .instr rfl (wordXnn_of_fieldOp_fieldNn hop ‹_›)

/-- The decoder answers every word rightly: by its family, then by the function bits of the families that have them. -/
theorem reading_decodeWord (w : Word) : Reading w (decodeWord w) := by
  unfold decodeWord
  split
  case h_1 hop => exact reading_decodeFamily0 hop
  case h_6 hop | h_10 hop =>
    split_ifs with hn
    · exact .instr rfl (wordXyn_of_fieldOp_fieldN hop (congrArg BitVec.toNat hn))
    · have hn : (fieldN w).toNat ≠ 0 := fun e => hn (BitVec.eq_of_toNat_eq e)
      exact .refusal ((illegalWord_iff w).2 (by simp [hop, hn]))
  case h_9 hop => exact reading_decodeFamily8 hop
  case h_14 hop => exact .instr rfl (wordXyn_of_fieldOp_fieldN hop rfl)
  case h_15 hop => exact reading_decodeFamilyE hop
  case h_16 hop => exact reading_decodeFamilyF hop
  case h_17 =>
    have hop := (fieldOp w).isLt
    simp only [imp_false] at *
    omega
  case h_2 hop | h_3 hop | h_11 hop | h_12 hop => exact .instr rfl (wordNnn_of_fieldOp hop)
  case h_4 hop | h_5 hop | h_7 hop | h_8 hop | h_13 hop => exact .instr rfl (wordXnn_of_fieldOp_fieldNn hop rfl)

/-- A decoded instruction is well formed and encodes to the word it was read from. -/
theorem encode_of_decodeWord {i : Instr} (h : decodeWord w = .ok i) : i.wellFormed = true ∧ encode i = w := by
  cases h ▸ reading_decodeWord w with
  | instr hwf henc => exact ⟨hwf, henc⟩

/-- A refused word is illegal, and the refusal names it. -/
theorem illegalWord_of_decodeWord {e : DecodeError} (h : decodeWord w = .error e) :
    e = .unknownOpcode w ∧ IllegalWord w := by
  cases h ▸ reading_decodeWord w with
  | refusal hill => exact ⟨rfl, hill⟩

/-- The decoder reads the word of a well-formed instruction as that instruction: the round trips of all 35 rows. -/
theorem decodeWord_encode : ∀ i : Instr, i.wellFormed = true → decodeWord (encode i) = .ok i
  | .cls => Laws.RoundTrip.cls
  | .ret => Laws.RoundTrip.ret
  | .jpNnn nnn => Laws.RoundTrip.jpNnn nnn
  | .callNnn nnn => Laws.RoundTrip.callNnn nnn
  | .seVxNn x nn => Laws.RoundTrip.seVxNn x nn
  | .sneVxNn x nn => Laws.RoundTrip.sneVxNn x nn
  | .seVxVy x y => Laws.RoundTrip.seVxVy x y
  | .ldVxNn x nn => Laws.RoundTrip.ldVxNn x nn
  | .addVxNn x nn => Laws.RoundTrip.addVxNn x nn
  | .ldVxVy x y => Laws.RoundTrip.ldVxVy x y
  | .orVxVy x y => Laws.RoundTrip.orVxVy x y
  | .andVxVy x y => Laws.RoundTrip.andVxVy x y
  | .xorVxVy x y => Laws.RoundTrip.xorVxVy x y
  | .addVxVy x y => Laws.RoundTrip.addVxVy x y
  | .subVxVy x y => Laws.RoundTrip.subVxVy x y
  | .shrVx x y => Laws.RoundTrip.shrVx x y
  | .subnVxVy x y => Laws.RoundTrip.subnVxVy x y
  | .shlVx x y => Laws.RoundTrip.shlVx x y
  | .sneVxVy x y => Laws.RoundTrip.sneVxVy x y
  | .ldINnn nnn => Laws.RoundTrip.ldINnn nnn
  | .jpV0Nnn nnn => Laws.RoundTrip.jpV0Nnn nnn
  | .rndVxNn x nn => Laws.RoundTrip.rndVxNn x nn
  | .drwVxVyN x y n => Laws.RoundTrip.drwVxVyN x y n
  | .skpVx x => Laws.RoundTrip.skpVx x
  | .sknpVx x => Laws.RoundTrip.sknpVx x
  | .ldVxDt x => Laws.RoundTrip.ldVxDt x
  | .ldVxK x => Laws.RoundTrip.ldVxK x
  | .ldDtVx x => Laws.RoundTrip.ldDtVx x
  | .ldStVx x => Laws.RoundTrip.ldStVx x
  | .addIVx x => Laws.RoundTrip.addIVx x
  | .ldFVx x => Laws.RoundTrip.ldFVx x
  | .ldBVx x => Laws.RoundTrip.ldBVx x
  | .ldMemVx x => Laws.RoundTrip.ldMemVx x
  | .ldVxMem x => Laws.RoundTrip.ldVxMem x
  | .sysNnn nnn => Laws.RoundTrip.sysNnn nnn

theorem decode_encodeBytes {i : Instr} (rest : List Byte) (hwf : i.wellFormed = true) :
    decode (encodeBytes i ++ rest) = .ok (i, rest) := by
  simp [encodeBytes, decode, decodeWord_encode i hwf]

/-- Settles O56: by the round trip of each row, and the reading the decoder gives of a word. -/
theorem decodeAndEncodeAgree : Obligations.DecodeAndEncodeAgree :=
  ⟨fun _ rest => decode_encodeBytes rest, fun _ _ => encode_of_decodeWord⟩

/-- Settles O36: a refused word is illegal, and a word that decodes is illegal exactly if it is one of SYS. -/
theorem legalWordsAreExactlyTheDecodedOnes : Obligations.LegalWordsAreExactlyTheDecodedOnes := by
  refine fun w => ⟨?_, fun e h => (illegalWord_of_decodeWord h).1⟩
  cases h : decodeWord w with
  | error e => simp [(illegalWord_of_decodeWord h).2]
  | ok i =>
    obtain ⟨hwf, rfl⟩ := encode_of_decodeWord h
    simp [illegalWord_encode_iff hwf]

end Sys2Proof.Machine
end

section
/-! Proofs for the family of spec/40_step_cycle.md: a halted step changes nothing (R121), a running one is the decoded
instruction and the timer phase (R120 to R128), a fatal one is precise (R123, R132), and the inputs matter to the
instructions that sample them alone (R126). -/

namespace Sys2Proof.Machine

variable {s t : State} {i : Instr}

/-! ### The halted step (R121) -/

theorem step_of_halted (h : s.halt = true) : step s = .next s.stepHalted := by
  rw [step, if_pos h]

theorem SameArchState.refl (s : State) : SameArchState s s :=
  ⟨fun _ => rfl, rfl, rfl, ⟨rfl, rfl⟩, ⟨rfl, rfl⟩, fun _ => rfl, rfl, rfl⟩

theorem sameArchState_stepHalted (s : State) : SameArchState s s.stepHalted :=
  SameArchState.refl s

theorem sameLatch_stepHalted (s : State) : SameLatch s s.stepHalted :=
  ⟨rfl, rfl, rfl⟩

/-- Settles O34: the step is `stepHalted`, which writes the two outputs alone. -/
theorem haltedStepChangesNothing : Obligations.HaltedStepChangesNothing := fun s h =>
  ⟨s.stepHalted, step_of_halted h, sameArchState_stepHalted s, sameLatch_stepHalted s, rfl, rfl, rfl, rfl⟩

/-- Every run of a halted machine ends where its first step does: `stepHalted` repeated changes nothing more. -/
theorem run_succ_of_halted (k : Nat) (h : s.halt = true) :
    Host.Core.run Sys2Proof.core (k + 1) s = .next s.stepHalted := by
  induction k generalizing s with
  | zero => exact run_succ 0 (step_of_halted h)
  | succ k ih => exact (run_succ (k + 1) (step_of_halted h)).trans (ih (s := s.stepHalted) h)

/-- Settles O45: a run of no step answers the state itself, every longer run answers `stepHalted`. -/
theorem haltLastsForEveryRun : Obligations.HaltLastsForEveryRun := by
  intro k s h
  cases k with
  | zero => exact ⟨s, rfl, SameArchState.refl s, rfl, rfl, rfl⟩
  | succ k => exact ⟨s.stepHalted, run_succ_of_halted k h, sameArchState_stepHalted s, sameLatch_stepHalted s⟩

/-! ### The running step (R120, R122 to R128) -/

/-- Settles O32: `step_of_exec`, which needs no well-formedness. -/
theorem stepRunsTheDecodedInstruction : Obligations.StepRunsTheDecodedInstruction :=
  fun _ _ _ hrun hdec _ h => step_of_exec hrun hdec h

/-- Settles O37: the instruction left the machine running, so the timer phase is one tick of both timers. -/
theorem timerPhaseTicksEveryNonFatalStep : Obligations.TimerPhaseTicksEveryNonFatalStep := by
  intro s t i hrun hdec h ht
  have hstep : step s = .next t.tickTimers.consumeInputs := by
    rw [step_of_exec hrun hdec h, State.timerPhase_of_running t ht]
  have htone : decide (t.st = 1#8) = true ↔ t.st.toNat = 1 :=
    decide_eq_true_iff.trans BitVec.toNat_inj.symm
  exact ⟨_, hstep, tickDown_toNat t.dt, tickDown_toNat t.st, htone, fun _ => rfl, rfl, rfl, ⟨rfl, rfl⟩, fun _ => rfl,
    ⟨rfl, rfl⟩, ⟨rfl, rfl, rfl⟩, rfl⟩

/-! ### The step that raises a fatal condition (R123, R132, R251, R259) -/

/-- `raiseFatal` is the entry into the fatal condition, and the end of the input sample keeps it so. -/
theorem fatalEntry_consumeInputs_raiseFatal (s : State) (c : Cause) (w : Word) :
    FatalEntry s (s.raiseFatal c w).consumeInputs c w :=
  ⟨SameArchState.refl s, rfl, rfl, rfl, rfl, rfl⟩

/-- A running step whose instruction raises a fatal condition has no timer phase. -/
theorem step_of_exec_raiseFatal {c : Cause} {w : Word} (hrun : s.halt = false) (hdec : decodeWord s.fetchWord = .ok i)
    (h : exec i s = .next (s.raiseFatal c w)) : step s = .next (s.raiseFatal c w).consumeInputs := by
  rw [step_of_exec hrun hdec h, State.timerPhase_of_halted _ rfl]

theorem step_of_decodeWord_error {e : DecodeError} (hrun : s.halt = false) (hdec : decodeWord s.fetchWord = .error e) :
    step s = .next s.undecodable := by
  simp [step, hrun, hdec]

/-- Settles O35: an illegal word is refused at decode, or it is one of SYS, whose meaning raises the same. -/
theorem illegalWordRaisesUnknownOpcode : Obligations.IllegalWordRaisesUnknownOpcode := by
  intro s hrun hill
  refine ⟨_, ?_, fatalEntry_consumeInputs_raiseFatal s .unknownOpcode s.fetchWord⟩
  cases hdec : decodeWord s.fetchWord with
  | error e => exact step_of_decodeWord_error hrun hdec
  | ok i =>
    obtain ⟨hwf, henc⟩ := encode_of_decodeWord hdec
    rw [← henc, illegalWord_encode_iff hwf] at hill
    cases i with
    | sysNnn nnn => exact step_of_exec_raiseFatal hrun hdec (henc ▸ rfl)
    | _ => cases hill

/-- An instruction raises a fatal condition with its own word, or leaves the latch alone. -/
theorem raiseFatal_or_sameLatch_of_exec (h : exec i s = .next t) :
    (∃ c, t = s.raiseFatal c (encode i)) ∨ SameLatch s t := by
  cases i with
  | sysNnn nnn => cases h; exact .inl ⟨_, rfl⟩
  | ret =>
    obtain ⟨-, e⟩ | ⟨-, p, -, e⟩ := exec_ret s <;> cases e.symm.trans h
    · exact .inl ⟨_, rfl⟩
    · exact .inr ⟨rfl, rfl, rfl⟩
  | callNnn nnn =>
    obtain ⟨-, e⟩ | ⟨-, k, p, -, -, e⟩ := exec_callNnn s nnn <;> cases e.symm.trans h
    · exact .inl ⟨_, rfl⟩
    · exact .inr ⟨rfl, rfl, rfl⟩
  | ldVxK x =>
    obtain ⟨-, e⟩ | ⟨-, k, -, e⟩ := exec_ldVxK s x <;> cases e.symm.trans h <;> exact .inr ⟨rfl, rfl, rfl⟩
  | seVxNn | sneVxNn | seVxVy | sneVxVy | skpVx | sknpVx =>
    cases h
    rw [State.skipIf_eq]
    exact .inr ⟨rfl, rfl, rfl⟩
  | ldBVx | ldMemVx => cases eq_of_writeBytes_done h; exact .inr ⟨rfl, rfl, rfl⟩
  | ldVxMem => cases eq_of_loadRegs_done h; exact .inr ⟨rfl, rfl, rfl⟩
  | _ => cases h; exact .inr ⟨rfl, rfl, rfl⟩

/-- The timer phase and the end of the sample keep HALT. -/
theorem halt_consumeInputs_timerPhase : s.timerPhase.consumeInputs.halt = s.halt := by
  cases hh : s.halt with
  | true => rw [State.timerPhase_of_halted s hh]; exact hh
  | false => rw [State.timerPhase_of_running s hh]; exact hh

/-- Settles O38: the step was refused at decode, or its instruction raised; one that kept the latch did not halt. -/
theorem fatalStepsArePrecise : Obligations.FatalStepsArePrecise := by
  intro s t hrun hstep ht
  obtain ⟨hhalt, -⟩ | ⟨-, -, rfl⟩ | ⟨-, i, u, hdec, hexec, rfl⟩ := step_cases s hstep
  · simp [hrun] at hhalt
  · exact fatalEntry_consumeInputs_raiseFatal s .unknownOpcode s.fetchWord
  · rw [halt_consumeInputs_timerPhase] at ht
    obtain ⟨c, rfl⟩ | ⟨hkept, -⟩ := raiseFatal_or_sameLatch_of_exec hexec
    · rw [State.timerPhase_of_halted _ ht, (encode_of_decodeWord hdec).2]
      exact fatalEntry_consumeInputs_raiseFatal s c s.fetchWord
    · simp [hkept, hrun] at ht

/-! ### The inputs sampled for a step (R126) -/

/-- The state with other inputs in place. -/
def State.setInputs (s : State) (ks : List Inputs) (n : Nat) : State := { s with inputs := ks, tick := n }

variable (ks : List Inputs) (n : Nat)

theorem State.push_setInputs (w : Word) : (s.setInputs ks n).push w = (s.push w).map (·.setInputs ks n) := by
  by_cases h : s.sp.val < 16 <;> simp [State.push, State.setInputs, h]

theorem State.pop_setInputs : (s.setInputs ks n).pop = s.pop.map (Prod.map id (·.setInputs ks n)) := by
  by_cases h : s.sp.val = 0 <;> simp [State.pop, State.stackAt, State.setInputs, h]

theorem State.writeBytes_setInputs (a : Nat) (l : List Byte) :
    (s.setInputs ks n).writeBytes a l = (s.writeBytes a l).setInputs ks n := by
  rw [State.writeBytes_eq, State.writeBytes_mem_congr (s := s.setInputs ks n) (t := s) rfl, State.writeBytes_eq s]
  rfl

theorem State.loadRegs_setInputs (a k : Nat) : (s.setInputs ks n).loadRegs a k = (s.loadRegs a k).setInputs ks n := by
  rw [State.loadRegs_eq, State.loadRegs_v_congr (s := s.setInputs ks n) (t := s) rfl rfl, State.loadRegs_eq s]
  rfl

theorem State.skipIf_setInputs (c : Bool) : (s.setInputs ks n).skipIf c = (s.skipIf c).setInputs ks n := by
  rw [State.skipIf_eq, State.skipIf_eq]
  rfl

variable {ks n}

theorem execRet_setInputs (h : execRet s = .next t) : execRet (s.setInputs ks n) = .next (t.setInputs ks n) := by
  have pop : (s.setInputs ks n).advancePc.pop = _ := State.pop_setInputs (s := s.advancePc) ks n
  rw [execRet] at h ⊢
  rw [pop]
  cases hp : s.advancePc.pop <;> rw [hp] at h <;> cases h <;> rfl

theorem execCallNnn_setInputs {nnn : Imm12} (h : execCallNnn nnn s = .next t) :
    execCallNnn nnn (s.setInputs ks n) = .next (t.setInputs ks n) := by
  have push : (s.setInputs ks n).advancePc.push (s.setInputs ks n).advancePc.pc = _ :=
    State.push_setInputs (s := s.advancePc) ks n s.advancePc.pc
  rw [execCallNnn] at h ⊢
  rw [push]
  cases hp : s.advancePc.push s.advancePc.pc <;> rw [hp] at h <;> cases h <;> rfl

theorem execLdVxK_setInputs {x : Nibble} (hkeys : (s.setInputs ks n).keys = s.keys) (h : execLdVxK x s = .next t) :
    execLdVxK x (s.setInputs ks n) = .next (t.setInputs ks n) := by
  rw [execLdVxK] at h ⊢
  rw [hkeys]
  cases hk : lowestKey s.keys <;> rw [hk] at h <;> cases h <;> rfl

theorem done_skipIf_setInputs {c c' : Bool} (hc : c' = c) (h : (s.advancePc.skipIf c).done = .next t) :
    ((s.setInputs ks n).advancePc.skipIf c').done = .next (t.setInputs ks n) := by
  cases h
  rw [hc]
  exact congrArg State.done (State.skipIf_setInputs (s := s.advancePc) ks n c)

/-- With other inputs in place that agree on what the instruction samples, it leaves the same state but for them. -/
theorem exec_setInputs (h : exec i s = .next t) (hkeys : usesKeys i = true → (s.setInputs ks n).keys = s.keys)
    (hrnd : usesRnd i = true → (s.setInputs ks n).rnd = s.rnd) :
    exec i (s.setInputs ks n) = .next (t.setInputs ks n) := by
  cases i with
  | ret => exact execRet_setInputs h
  | callNnn => exact execCallNnn_setInputs h
  | ldVxK => exact execLdVxK_setInputs (hkeys rfl) h
  | skpVx x => exact done_skipIf_setInputs (congrArg (keyDown · (lowNibble (s.readV x))) (hkeys rfl)) h
  | sknpVx x => exact done_skipIf_setInputs (congrArg (!keyDown · (lowNibble (s.readV x))) (hkeys rfl)) h
  | rndVxNn x nn =>
    cases h
    rw [exec, execRndVxNn, hrnd rfl]
    rfl
  | seVxNn | sneVxNn | seVxVy | sneVxVy => exact done_skipIf_setInputs rfl h
  | ldBVx | ldMemVx =>
    cases h
    exact congrArg State.done (State.writeBytes_setInputs (s := s.advancePc) ks n _ _)
  | ldVxMem =>
    cases h
    exact congrArg State.done (State.loadRegs_setInputs (s := s.advancePc) ks n _ _)
  | _ => cases h; rfl

/-- Settles O52: the two hypotheses are those of `exec_setInputs`. -/
theorem inputsMatterOnlyToTheirInstructions : Obligations.InputsMatterOnlyToTheirInstructions :=
  fun _ _ _ _ _ => exec_setInputs

end Sys2Proof.Machine
end

section
/-! Proofs for the family of spec/41_control_flow.md: CLS (R141), the jumps (R143, R150), the skips (R145 to R148), CALL
and RET with their two fatal conditions (R142, R144), and SYS, which raises UnknownOpcode (R140). -/

namespace Sys2Proof.Machine

variable {s t : State} {i : Instr}

/-! ### The instructions that raise a fatal condition -/

/-- An instruction that answers `raiseFatal` enters the fatal condition and takes no sample. -/
theorem exists_fatalEntry_of_exec {c : Cause} {w : Word} (h : exec i s = .next (s.raiseFatal c w)) :
    ∃ t, exec i s = .next t ∧ FatalEntry s t c w ∧ t.inputs = s.inputs ∧ t.tick = s.tick :=
  ⟨_, h, ⟨SameArchState.refl s, rfl, rfl, rfl, rfl, rfl⟩, rfl, rfl⟩

/-- Settles O1: by the round trip of SYS, which the two excluded fields keep well formed, and its one meaning. -/
theorem sysRaisesUnknownOpcode : Obligations.SysRaisesUnknownOpcode := by
  intro nnn s hcls hret
  have hwf : (Instr.sysNnn nnn).wellFormed = true := by simp [Instr.wellFormed, sysFieldOk, hcls, hret]
  exact ⟨Laws.RoundTrip.sysNnn nnn hwf, exists_fatalEntry_of_exec rfl⟩

/-! ### The display cleared -/

/-- Settles O2: CLS draws the blank display, whose pixels are all 0. -/
theorem clsClearsTheDisplay : Obligations.ClsClearsTheDisplay := by
  refine ⟨Laws.RoundTrip.cls rfl, fun s => ⟨_, ⟨rfl, rfl⟩, fun x _ y _ => Display.pixel_blank x y, rfl, rfl, ?_⟩⟩
  exact ⟨fun _ => rfl, rfl, ⟨rfl, rfl⟩, ⟨rfl, rfl⟩, fun _ => rfl, ⟨rfl, rfl, rfl⟩, rfl, rfl, rfl⟩

/-! ### Jumps and skips: PC alone changes -/

theorem onlyPc_setResult_setPc (s : State) (a : Word) (r : StepResult) : OnlyPc s ((s.setPc a).setResult r) :=
  ⟨fun _ => rfl, rfl, ⟨rfl, rfl⟩, ⟨rfl, rfl⟩, fun _ => rfl, ⟨rfl, rfl⟩, ⟨rfl, rfl, rfl⟩, rfl, rfl, rfl⟩

theorem toNat_zextNnn (nnn : Imm12) : (zextNnn nnn).toNat = nnn.toNat :=
  BitVec.toNat_setWidth_of_le (by decide)

/-- The target of JP V0 is the unbounded sum: it is below 65536. -/
theorem toNat_zextNnn_add_zextByte (nnn : Imm12) (b : Byte) :
    (zextNnn nnn + zextByte b).toNat = nnn.toNat + b.toNat := by
  rw [zextNnn_add_zextByte, BitVec.toNat_ofNat]
  omega

/-- Settles O4: the jump writes PC alone. -/
theorem jpSetsPcToNnn : Obligations.JpSetsPcToNnn := fun nnn s =>
  ⟨Laws.RoundTrip.jpNnn nnn rfl, _, ⟨rfl, rfl⟩, toNat_zextNnn nnn, onlyPc_setResult_setPc s _ _⟩

/-- Settles O6: the jump writes PC alone, and its target does not wrap. -/
theorem jpV0AddsV0 : Obligations.JpV0AddsV0 := fun nnn s =>
  ⟨Laws.RoundTrip.jpV0Nnn nnn rfl, _, ⟨rfl, rfl⟩, toNat_zextNnn_add_zextByte nnn _, onlyPc_setResult_setPc s _ _⟩

/-- What an instruction that is a skip on `p` does: PC is 4 on where `p` holds, else 2 on, and nothing else changes. -/
theorem exists_skip_of_exec {p : Prop} [Decidable p] (h : exec i s = (s.advancePc.skipIf (decide p)).done) :
    ∃ t, CompletesTo i s t ∧ (p → t.pc = s.pc + 4#16) ∧ (¬ p → t.pc = s.pc + 2#16) ∧ OnlyPc s t := by
  have hpc := pc_of_skip (s := s) rfl (decide_eq_true_iff (p := p))
  rw [State.skipIf_eq] at h hpc
  exact ⟨_, ⟨h, rfl⟩, fun hp => hpc.trans (if_pos hp), fun hp => hpc.trans (if_neg hp), onlyPc_setResult_setPc s _ _⟩

/-- Settles O7: both are skips, on opposite conditions. -/
theorem immediateSkips : Obligations.ImmediateSkips := fun x nn _ =>
  ⟨Laws.RoundTrip.seVxNn x nn rfl, Laws.RoundTrip.sneVxNn x nn rfl, exists_skip_of_exec rfl, exists_skip_of_exec rfl⟩

/-- Families 5 and 9 have no row but `n = 0`. -/
theorem decodeWord_wordXyn_of_ne_zero {op : Nibble} (hop : op = 0x5#4 ∨ op = 0x9#4) (x y : Nibble) {n : Nibble}
    (hn : n ≠ 0x0#4) : decodeWord (wordXyn op x y n) = .error (.unknownOpcode (wordXyn op x y n)) := by
  obtain rfl | rfl := hop <;> simp [decodeWord, hn]

/-- Settles O8: both are skips, on opposite conditions, and no other low nibble decodes. -/
theorem registerSkips : Obligations.RegisterSkips := fun x y _ =>
  ⟨Laws.RoundTrip.seVxVy x y rfl, Laws.RoundTrip.sneVxVy x y rfl, exists_skip_of_exec rfl, exists_skip_of_exec rfl,
    fun _ hn => ⟨decodeWord_wordXyn_of_ne_zero (.inl rfl) x y hn, decodeWord_wordXyn_of_ne_zero (.inr rfl) x y hn⟩⟩

/-! ### RET and CALL -/

/-- Settles O3: the two ways RET can end, one for each case of SP. -/
theorem retPopsOrUnderflows : Obligations.RetPopsOrUnderflows := by
  refine ⟨Laws.RoundTrip.ret rfl, fun s => ?_⟩
  obtain ⟨hsp, h⟩ | ⟨hsp, p, hp, h⟩ := exec_ret s
  · exact ⟨fun hne => absurd hsp hne, fun _ => exists_fatalEntry_of_exec h⟩
  · have hpop : p.val + 1 = s.sp.val := by omega
    refine ⟨fun _ => ⟨_, ⟨h, rfl⟩, rfl, hpop, rfl, ?_⟩, fun hzero => absurd hzero hsp⟩
    exact ⟨fun _ => rfl, rfl, ⟨rfl, rfl⟩, fun _ => rfl, ⟨rfl, rfl⟩, ⟨rfl, rfl, rfl⟩, rfl, rfl, rfl⟩

/-- A RET takes the top entry `w` back off the stack: PC is `w`, and SP is what it was below that entry. -/
theorem exists_ret_of_top {k : Fin 17} {w : Word} (hsp : t.sp.val = k.val + 1) (htop : t.stackAt k.val = w) :
    ∃ u, CompletesTo .ret t u ∧ u.pc = w ∧ u.sp = k := by
  obtain ⟨u, hu, hpc, hpop, -⟩ := (retPopsOrUnderflows.2 t).1 (by omega)
  rw [hsp, Nat.add_sub_cancel, htop] at hpc
  exact ⟨u, hu, hpc, Fin.ext (by omega)⟩

/-- Settles O5: the two ways CALL can end, one for each case of SP; the entry it pushed is what a RET pops. -/
theorem callPushesAndJumps : Obligations.CallPushesAndJumps := by
  refine fun nnn s => ⟨Laws.RoundTrip.callNnn nnn rfl, ?_⟩
  obtain ⟨hsp, h⟩ | ⟨hsp, st, p, hp, hst, h⟩ := exec_callNnn s nnn
  · exact ⟨fun hlt => absurd hsp hlt.ne, fun _ => exists_fatalEntry_of_exec h⟩
  · have hpushed : st[s.sp.val]?.getD 0x0000#16 = s.pc + 2#16 := (hst _ hsp).trans (if_pos rfl)
    have hkept : ∀ k < 16, k ≠ s.sp.val → st[k]?.getD 0x0000#16 = s.stackAt k :=
      fun k hk hne => (hst k hk).trans (if_neg hne)
    refine ⟨fun _ => ⟨_, ⟨h, rfl⟩, toNat_zextNnn nnn, hp, hpushed, hkept, ?_⟩, fun hfull => absurd hfull hsp.ne⟩
    exact ⟨fun _ => rfl, rfl, ⟨rfl, rfl⟩, fun _ => rfl, ⟨rfl, rfl⟩, ⟨rfl, rfl, rfl⟩, ⟨rfl, rfl, rfl⟩,
      exists_ret_of_top hp hpushed⟩

end Sys2Proof.Machine
end

section
/-! Proofs for the family of spec/42_arith_logic.md: the loads, the sums and the bitwise operations that write no flag
(R160 to R165), the five instructions that write VF last (R166 to R170), and the masked random byte (R172). -/

namespace Sys2Proof.Machine

variable {s : State} {i : Instr} {x : Nibble} {b f : Byte}

/-! ### What an instruction does that writes Vx, and what one does that then writes VF -/

/-- Registers, PC and the result can change freely inside the frame. -/
theorem onlyRegsAndPc_regs (s : State) (v : Vector Byte 16) (pc : Word) (r : Option StepResult) :
    OnlyRegsAndPc s { s with v := v, pc := pc, result := r } :=
  ⟨rfl, ⟨rfl, rfl⟩, ⟨rfl, rfl⟩, fun _ => rfl, ⟨rfl, rfl⟩, ⟨rfl, rfl, rfl⟩, rfl, rfl, rfl⟩

/-- An instruction whose one register write is `b` to Vx: every register after it. -/
theorem exists_readV_of_exec (h : exec i s = (s.advancePc.writeV x b).done) :
    ∃ t, CompletesTo i s t ∧ (∀ r, t.readV r = if r = x then b else s.readV r) ∧
      t.pc = s.pc + 2#16 ∧ OnlyRegsAndPc s t :=
  ⟨_, ⟨h, rfl⟩, fun r => s.advancePc.readV_writeV x r b, rfl, onlyRegsAndPc_regs s _ _ _⟩

/-- An instruction whose one register write is `b` to Vx, where `p` holds of `b`. -/
theorem exists_prop_of_exec (p : Byte → Prop) (hp : p b) (h : exec i s = (s.advancePc.writeV x b).done) :
    ∃ t, CompletesTo i s t ∧ p (t.readV x) ∧ (∀ r, r ≠ x → t.readV r = s.readV r) ∧
      t.pc = s.pc + 2#16 ∧ OnlyRegsAndPc s t := by
  obtain ⟨t, hok, hread, hframe⟩ := exists_readV_of_exec h
  have hx : t.readV x = b := (hread x).trans (if_pos rfl)
  exact ⟨t, hok, hx ▸ hp, fun r hr => (hread r).trans (if_neg hr), hframe⟩

/-- An instruction that writes a byte of bits `bit` to Vx and no other register. -/
theorem exists_bits_of_exec {bit : Nat → Bool} (h : exec i s = (s.advancePc.writeV x b).done)
    (hbit : ∀ k, b.getLsbD k = bit k) :
    ∃ t, CompletesTo i s t ∧ (∀ k, (t.readV x).getLsbD k = bit k) ∧ (∀ r, r ≠ x → t.readV r = s.readV r) ∧
      t.pc = s.pc + 2#16 ∧ OnlyRegsAndPc s t :=
  exists_prop_of_exec (fun b => ∀ k, b.getLsbD k = bit k) hbit h

/-- An instruction that writes `b` to Vx and then the flag to VF (R171): where x is F the flag replaces the result. -/
theorem exists_flagged_of_exec {flag : Byte} {n : Nat}
    (h : exec i s = ((s.advancePc.writeV x b).writeFlag f).done) (hflag : f = flag) (hn : b.toNat = n) :
    ∃ t, CompletesTo i s t ∧ t.readV regVF = flag ∧ (x ≠ regVF → (t.readV x).toNat = n) ∧
      (∀ r, r ≠ x → r ≠ regVF → t.readV r = s.readV r) ∧ t.pc = s.pc + 2#16 ∧ OnlyRegsAndPc s t := by
  have hread (r : Nibble) : (((s.advancePc.writeV x b).writeFlag f).setResult .ok).readV r =
      if r = regVF then f else if r = x then b else s.readV r := by
    rw [State.readV_setResult, State.readV_writeFlag, State.readV_writeV, State.readV_advancePc]
  refine ⟨_, ⟨h, rfl⟩, ?_, fun hx => ?_, fun r hx hF => ?_, rfl, onlyRegsAndPc_regs s _ _ _⟩
  · rw [hread, if_pos rfl, hflag]
  · rw [hread, if_neg hx, if_pos rfl, hn]
  · rw [hread, if_neg hF, if_neg hx]

/-! ### Flags and results as numbers (R173) -/

theorem flagOf_eq_ite {c : Bool} {p : Prop} [Decidable p] (h : c = true ↔ p) :
    flagOf c = if p then 0x01#8 else 0x00#8 :=
  if_congr h rfl rfl

theorem carryFlag_eq_ite (a b : Byte) :
    carryFlag a b = if a.toNat + b.toNat > 255 then 0x01#8 else 0x00#8 :=
  flagOf_eq_ite decide_eq_true_iff

theorem greaterFlag_eq_ite (a b : Byte) : greaterFlag a b = if a.toNat > b.toNat then 0x01#8 else 0x00#8 :=
  flagOf_eq_ite decide_eq_true_iff

theorem shrFlag_eq_ite (a : Byte) : shrFlag a = if a.toNat % 2 = 1 then 0x01#8 else 0x00#8 :=
  flagOf_eq_ite (by rw [BitVec.getLsbD, Nat.testBit_zero, decide_eq_true_iff])

/-- Bit 7 is the most significant bit of a byte. -/
theorem shlFlag_eq_ite (a : Byte) : shlFlag a = if a.toNat ≥ 128 then 0x01#8 else 0x00#8 :=
  flagOf_eq_ite (a.msb_eq_getLsbD_last ▸ BitVec.msb_eq_true_iff_two_mul_ge.trans (by omega))

/-- A difference modulo 256, from below 0 too. -/
theorem toNat_sub_byte (a b : Byte) : (a - b).toNat = (a.toNat + 256 - b.toNat) % 256 := by
  rw [BitVec.toNat_sub]
  omega

theorem toNat_ushiftRight_one (a : Byte) : (a >>> 1).toNat = a.toNat / 2 := by
  rw [BitVec.toNat_ushiftRight, Nat.shiftRight_one]

theorem toNat_shiftLeft_one (a : Byte) : (a <<< 1).toNat = 2 * a.toNat % 256 := by
  rw [BitVec.toNat_shiftLeft, Nat.shiftLeft_eq]
  omega

/-! ### The five instructions that write VF (R166 to R170) -/

/-- Settles O13: the flag is the carry. -/
theorem addWithCarry : Obligations.AddWithCarry := fun x y _ =>
  ⟨Laws.RoundTrip.addVxVy x y rfl, exists_flagged_of_exec rfl (carryFlag_eq_ite _ _) (BitVec.toNat_add _ _)⟩

/-- Settles O14: the flag compares Vx with Vy. -/
theorem subtractSetsVFWhenGreater : Obligations.SubtractSetsVFWhenGreater := fun x y _ =>
  ⟨Laws.RoundTrip.subVxVy x y rfl, exists_flagged_of_exec rfl (greaterFlag_eq_ite _ _) (toNat_sub_byte _ _)⟩

/-- Settles O15: the flag compares Vy with Vx. -/
theorem subtractReversedSetsVFWhenGreater : Obligations.SubtractReversedSetsVFWhenGreater := fun x y _ =>
  ⟨Laws.RoundTrip.subnVxVy x y rfl, exists_flagged_of_exec rfl (greaterFlag_eq_ite _ _) (toNat_sub_byte _ _)⟩

/-- Settles O16: the flag is the bit shifted out of Vx. -/
theorem shiftRightCapturesBitZero : Obligations.ShiftRightCapturesBitZero := fun x y _ =>
  ⟨Laws.RoundTrip.shrVx x y rfl, exists_flagged_of_exec rfl (shrFlag_eq_ite _) (toNat_ushiftRight_one _)⟩

/-- Settles O17: the flag is the bit shifted out of Vx. -/
theorem shiftLeftCapturesBitSeven : Obligations.ShiftLeftCapturesBitSeven := fun x y _ =>
  ⟨Laws.RoundTrip.shlVx x y rfl, exists_flagged_of_exec rfl (shlFlag_eq_ite _) (toNat_shiftLeft_one _)⟩

/-! ### The instructions that write Vx alone (R160 to R165, R172) -/

/-- Settles O9: one register write. -/
theorem ldVxNnLoadsTheImmediate : Obligations.LdVxNnLoadsTheImmediate := fun x nn _ =>
  ⟨Laws.RoundTrip.ldVxNn x nn rfl, exists_readV_of_exec rfl⟩

/-- Settles O10: one register write, of the wrapped sum. -/
theorem addImmediateWrapsWithoutFlag : Obligations.AddImmediateWrapsWithoutFlag := fun x nn s =>
  ⟨Laws.RoundTrip.addVxNn x nn rfl,
    exists_prop_of_exec (fun b => b.toNat = ((s.readV x).toNat + nn.toNat) % 256) (BitVec.toNat_add _ _) rfl⟩

/-- Settles O11: one register write. -/
theorem ldVxVyCopies : Obligations.LdVxVyCopies := fun x y _ =>
  ⟨Laws.RoundTrip.ldVxVy x y rfl, exists_readV_of_exec rfl⟩

/-- Settles O12: each is one register write, of a bitwise result. -/
theorem logicOpsWriteVxOnly : Obligations.LogicOpsWriteVxOnly := fun x y _ =>
  ⟨Laws.RoundTrip.orVxVy x y rfl, Laws.RoundTrip.andVxVy x y rfl, Laws.RoundTrip.xorVxVy x y rfl,
    exists_bits_of_exec rfl fun _ => BitVec.getLsbD_or, exists_bits_of_exec rfl fun _ => BitVec.getLsbD_and,
    exists_bits_of_exec rfl fun _ => BitVec.getLsbD_xor⟩

/-- Where the host has fixed the inputs of the step, the sampled byte is the head's (log 4). -/
theorem State.rnd_of_inputs {ks : Word} {r : Byte} {rest : List Inputs} (h : s.inputs = ⟨ks, r⟩ :: rest) :
    s.rnd = r := by
  rw [State.rnd, h]

/-- Settles O18: one register write, of the masked sample. -/
theorem randomByteIsMasked : Obligations.RandomByteIsMasked := fun x nn _ =>
  ⟨Laws.RoundTrip.rndVxNn x nn rfl, exists_bits_of_exec rfl fun _ => BitVec.getLsbD_and,
    fun _ _ _ => State.rnd_of_inputs⟩

end Sys2Proof.Machine
end

section
/-! Proofs for the family of spec/43_memory_index.md: the three instructions that write I (R190 to R192), the two that
store bytes at I (R194, R195), and the block load from I (R196). I is kept by every access it is the base of (R197). -/

namespace Sys2Proof.Machine

variable {s : State} {i : Instr} {a : Word} {n : Nat} {l : List Byte}

/-! ### What an instruction does that stores bytes at I, and what one does that writes I -/

/-- An instruction that stores the list `l` at I: entry `k` is the byte at `I + k` modulo 4096, and memory outside
these bytes is kept, with all else but PC. -/
theorem exists_stored_of_exec (h : exec i s = (s.advancePc.writeBytes (s.ea 0) l).done) (hl : l.length ≤ 4096) :
    ∃ t, CompletesTo i s t ∧ (∀ k (hk : k < l.length), t.readByte (s.ea k) = l[k]) ∧
      (∀ a < 4096, (∀ k < l.length, a ≠ s.ea k % 4096) → t.readByte a = s.readByte a) ∧
      t.pc = s.pc + 2#16 ∧ OnlyMemAndPc s t := by
  have hframe := eq_of_writeBytes_done (s := s) (a := s.ea 0) (l := l) rfl
  refine ⟨_, ⟨h, rfl⟩, fun k hk => ?_, fun _ => readByte_of_not_stored rfl hl, ?_⟩
  · exact s.advancePc.readByte_writeBytes_hit (s.ea 0) k l hl hk
  · rw [hframe]
    exact ⟨rfl, fun _ => rfl, rfl, ⟨rfl, rfl⟩, ⟨rfl, rfl⟩, ⟨rfl, rfl⟩, ⟨rfl, rfl, rfl⟩, rfl, rfl, rfl⟩

/-- An instruction that writes a value `n` to I changes nothing else but PC. -/
theorem exists_index_of_exec (hn : a.toNat = n) (h : exec i s = (s.advancePc.setI a).done) :
    ∃ t, CompletesTo i s t ∧ t.i.toNat = n ∧ t.pc = s.pc + 2#16 ∧ OnlyIAndPc s t :=
  ⟨_, ⟨h, rfl⟩, hn, rfl, fun _ => rfl, ⟨rfl, rfl⟩, ⟨rfl, rfl⟩, fun _ => rfl, ⟨rfl, rfl⟩, ⟨rfl, rfl, rfl⟩, rfl, rfl, rfl⟩

/-! ### The two stores (R194, R195) -/

/-- A number below 256 is the value of its byte. -/
theorem toNat_ofNat_byte (hn : n < 256) : (BitVec.ofNat 8 n).toNat = n :=
  (BitVec.toNat_ofNat n 8).trans (Nat.mod_eq_of_lt hn)

/-- Settles O22: the stored list is the three digits, each small enough to be a byte. -/
theorem bcdStoresThreeDigits : Obligations.BcdStoresThreeDigits := by
  intro x s
  have hv := (s.readV x).isLt
  have hlen : (bcdDigits (s.readV x)).length = 3 := rfl
  obtain ⟨t, hok, hhit, hkept, hframe⟩ := exists_stored_of_exec (i := .ldBVx x) (s := s) rfl (by omega)
  refine ⟨Laws.RoundTrip.ldBVx x rfl, t, hok, ?_, ?_, ?_, hkept, hframe⟩
  · exact (congrArg BitVec.toNat (hhit 0 (by omega))).trans (toNat_ofNat_byte (by omega))
  · exact (congrArg BitVec.toNat (hhit 1 (by omega))).trans (toNat_ofNat_byte (by omega))
  · exact (congrArg BitVec.toNat (hhit 2 (by omega))).trans (toNat_ofNat_byte (by omega))

/-- Settles O23: the stored list is V0 to Vx, entry `r` the register `r`. -/
theorem blockStoreSpillsV0ToVx : Obligations.BlockStoreSpillsV0ToVx := by
  intro x s
  have hx := x.isLt
  have hlen := s.regList_length (x.toNat + 1)
  obtain ⟨t, hok, hhit, hkept, hframe⟩ := exists_stored_of_exec (i := .ldMemVx x) (s := s) rfl (by omega)
  refine ⟨Laws.RoundTrip.ldMemVx x rfl, t, hok, fun r hr => ?_, fun a ha hmiss => ?_, hframe⟩
  · rw [hhit r.toNat (by omega), State.regList_get, BitVec.ofNat_toNat, BitVec.setWidth_eq]
  · exact hkept a ha fun k hk => hmiss k (by omega)

/-! ### The block load (R196) -/

/-- Settles O24: the block load of `x + 1` registers, which keeps the registers above Vx and all else but PC. -/
theorem blockLoadFillsV0ToVx : Obligations.BlockLoadFillsV0ToVx := by
  intro x s
  have hread := s.advancePc.readV_loadRegs (s.ea 0) (x.toNat + 1) x.isLt
  refine ⟨Laws.RoundTrip.ldVxMem x rfl, _, ⟨rfl, rfl⟩, fun r hr => ?_, fun r hr => ?_, ?_⟩
  · exact (hread r).trans (if_pos (Nat.lt_succ_of_le hr))
  · exact (hread r).trans (if_neg fun hlt => hr (Nat.le_of_lt_succ hlt))
  · rw [eq_of_loadRegs_done rfl]
    exact ⟨rfl, onlyRegsAndPc_regs s _ _ _⟩

/-! ### The three instructions that write I (R190 to R192) -/

/-- The sum of I and a register is taken modulo 65536. -/
theorem toNat_add_zextByte (a : Word) (b : Byte) : (a + zextByte b).toNat = (a.toNat + b.toNat) % 65536 := by
  rw [BitVec.toNat_add, zextByte, BitVec.toNat_setWidth_of_le (by decide)]

/-- FONT_BASE is 0, and the highest glyph address, 75, does not wrap. -/
theorem toNat_glyphAddr (b : Byte) : (glyphAddr b).toNat = 5 * (b.toNat % 16) := by
  rw [glyphAddr, BitVec.toNat_ofNat, lowNibble, Config.fontBase, Config.fontStride]
  omega

/-- Settles O19: one write of I. -/
theorem ldISetsI : Obligations.LdISetsI := fun nnn _ =>
  ⟨Laws.RoundTrip.ldINnn nnn rfl, exists_index_of_exec (toNat_zextNnn nnn) rfl⟩

/-- Settles O20: one write of I, of the wrapped sum. -/
theorem addIWrapsAtSixteenBits : Obligations.AddIWrapsAtSixteenBits := fun x _ =>
  ⟨Laws.RoundTrip.addIVx x rfl, exists_index_of_exec (toNat_add_zextByte _ _) rfl⟩

/-- Settles O21: one write of I, of the glyph address. -/
theorem ldFComputesTheGlyphAddress : Obligations.LdFComputesTheGlyphAddress := fun x _ =>
  ⟨Laws.RoundTrip.ldFVx x rfl, exists_index_of_exec (toNat_glyphAddr _) rfl⟩

end Sys2Proof.Machine
end

section
/-! Proofs for the family of spec/44_timers.md: LD Vx,DT reads the delay timer before the step's tick (R210), and a timer
written by LD DT,Vx or LD ST,Vx is ticked in the same step (R211, R212). -/

namespace Sys2Proof.Machine

variable {s t : State} {i : Instr} {w : Word}

/-- The end of a running step whose instruction `i` answers the running state `t`: the registers are those of `t`, both
timers are one lower than in `t`, and the tone sounds where ST was 1 in `t`. -/
theorem exists_ticked_of_exec (hdec : decodeWord w = .ok i) (h : exec i s = .next t) (hhalt : t.halt = s.halt)
    (hrun : s.halt = false) (hword : s.fetchWord = w) :
    ∃ u, step s = .next u ∧ SameV t u ∧ u.dt.toNat = t.dt.toNat - 1 ∧ u.st.toNat = t.st.toNat - 1 ∧
      (u.tone = true ↔ t.st.toNat = 1) := by
  obtain ⟨u, hstep, hdt, hst, htone, hv, -⟩ :=
    timerPhaseTicksEveryNonFatalStep s t i hrun (hword ▸ hdec) h (hhalt.trans hrun)
  exact ⟨u, hstep, hv, hdt, hst, htone⟩

/-- The frame of an instruction that may change the timers and PC alone (and gives its result). -/
theorem frame_of_timers (s : State) (dt st : Byte) (pc : Word) (r : Option StepResult) :
    let t := { s with dt := dt, st := st, pc := pc, result := r }
    SameV s t ∧ t.i = s.i ∧ SameStack s t ∧ SameMem s t ∧ SameDisplay s t ∧ SameLatch s t ∧ SamePorts s t :=
  ⟨fun _ => rfl, rfl, ⟨rfl, rfl⟩, fun _ => rfl, ⟨rfl, rfl⟩, ⟨rfl, rfl, rfl⟩, rfl, rfl, rfl⟩

/-- Settles O25: one register write, of the DT that the step's tick has not lowered yet; the tick keeps the register. -/
theorem ldVxDtReadsBeforeTheTick : Obligations.LdVxDtReadsBeforeTheTick := by
  intro x s
  have hdec := Laws.RoundTrip.ldVxDt x rfl
  refine ⟨hdec, exists_readV_of_exec rfl, fun hrun hword => ?_⟩
  obtain ⟨u, hstep, hv, hdt, -⟩ := exists_ticked_of_exec hdec rfl rfl hrun hword
  refine ⟨u, hstep, ?_, hdt⟩
  calc u.readV x
    _ = (s.advancePc.writeV x s.dt).readV x := hv x
    _ = s.dt := by simp

/-- Settles O26: one write of DT, which the tick of the same step lowers. -/
theorem ldDtIsTickedInTheSameStep : Obligations.LdDtIsTickedInTheSameStep := by
  intro x s
  have hdec := Laws.RoundTrip.ldDtVx x rfl
  refine ⟨hdec, ⟨_, ⟨rfl, rfl⟩, rfl, rfl, rfl, frame_of_timers s (s.readV x) s.st _ _⟩, fun hrun hword => ?_⟩
  obtain ⟨u, hstep, -, hdt, -⟩ := exists_ticked_of_exec hdec rfl rfl hrun hword
  exact ⟨u, hstep, hdt⟩

/-- Settles O27: one write of ST, which the tick of the same step lowers, with a tone where the written value is 1. -/
theorem ldStSoundsInTheSameStepWhenOne : Obligations.LdStSoundsInTheSameStepWhenOne := by
  intro x s
  have hdec := Laws.RoundTrip.ldStVx x rfl
  refine ⟨hdec, ⟨_, ⟨rfl, rfl⟩, rfl, rfl, rfl, frame_of_timers s s.dt (s.readV x) _ _⟩, fun hrun hword => ?_⟩
  obtain ⟨u, hstep, -, -, hst, htone⟩ := exists_ticked_of_exec hdec rfl rfl hrun hword
  exact ⟨u, hstep, hst, htone⟩

end Sys2Proof.Machine
end

section
/-! Proofs for the family of spec/45_display.md: what one DRW leaves (R220, R221, R223, R226), and two equal draws in a
row (R224, log 16). -/

namespace Sys2Proof.Machine

variable (s : State) (x y n : Nibble) {p q : Nat}

/-! ### The state that DRW leaves, and what it reads as -/

/-- The state that DRW Vx,Vy,n leaves (R220). -/
def State.drawn : State :=
  let r := s.drawSprite (s.readV x) (s.readV y) n
  ((s.advancePc.setDisplay r.fb).writeFlag (flagOf r.coll)).setResult .ok

theorem completesTo_drawn : CompletesTo (.drwVxVyN x y n) s (s.drawn x y n) := ⟨rfl, rfl⟩

variable {s x y n}

/-- The targets of the set bits are inverted (R220). -/
theorem pixel_drawn_of_spriteHits (h : spriteHits s x y n p q) : (s.drawn x y n).pixel p q = !s.pixel p q :=
  ((s.draws_drawSprite x y n).1 p q).1 h

/-- Every other pixel is kept (R220). -/
theorem pixel_drawn_of_not_spriteHits (h : ¬ spriteHits s x y n p q) : (s.drawn x y n).pixel p q = s.pixel p q :=
  ((s.draws_drawSprite x y n).1 p q).2 h

theorem readV_drawn_of_ne {r : Nibble} (hr : r ≠ regVF) : (s.drawn x y n).readV r = s.readV r := by
  simp [State.drawn, hr]

theorem flagOf_eq_one_iff {c : Bool} : flagOf c = 0x01#8 ↔ c = true := by
  cases c <;> decide

theorem flagOf_eq_zero_iff {c : Bool} : flagOf c = 0x00#8 ↔ c = false := by
  cases c <;> decide

/-- VF holds the flag of the collision seen over the whole sprite (R223). -/
theorem readV_regVF_drawn :
    (s.drawn x y n).readV regVF = flagOf (s.drawSprite (s.readV x) (s.readV y) n).coll := by
  simp [State.drawn]

/-- A collision is seen exactly where some target was on before (R223). -/
theorem coll_drawSprite_iff :
    (s.drawSprite (s.readV x) (s.readV y) n).coll = true ↔ ∃ p q, spriteHits s x y n p q ∧ s.pixel p q = true :=
  (s.draws_drawSprite x y n).2.trans (or_iff_right Bool.false_ne_true)

theorem readV_regVF_drawn_eq_one_iff :
    (s.drawn x y n).readV regVF = 0x01#8 ↔ ∃ p q, spriteHits s x y n p q ∧ s.pixel p q = true := by
  rw [readV_regVF_drawn, flagOf_eq_one_iff, coll_drawSprite_iff]

theorem readV_regVF_drawn_eq_zero_iff :
    (s.drawn x y n).readV regVF = 0x00#8 ↔ ¬ ∃ p q, spriteHits s x y n p q ∧ s.pixel p q = true := by
  rw [readV_regVF_drawn, flagOf_eq_zero_iff, ← coll_drawSprite_iff, Bool.not_eq_true]

/-- Settles O30: DRW completes in the drawn state. -/
theorem drawXorsTheSpriteWithCollision : Obligations.DrawXorsTheSpriteWithCollision := fun x y n s =>
  ⟨Laws.RoundTrip.drwVxVyN x y n rfl, s.drawn x y n, completesTo_drawn s x y n,
    fun _ _ _ _ => ⟨pixel_drawn_of_spriteHits, pixel_drawn_of_not_spriteHits⟩,
    readV_regVF_drawn_eq_one_iff.2, readV_regVF_drawn_eq_zero_iff.2, fun _ => readV_drawn_of_ne,
    rfl, rfl, rfl, ⟨rfl, rfl⟩, ⟨rfl, rfl⟩, fun _ => rfl, ⟨rfl, rfl, rfl⟩, rfl, rfl, rfl⟩

/-! ### Drawing the same sprite again (R224) -/

/-- A draw whose coordinates are not in VF has the same targets afterwards. -/
theorem spriteHits_drawn_iff (hx : x ≠ regVF) (hy : y ≠ regVF) :
    spriteHits (s.drawn x y n) x y n p q ↔ spriteHits s x y n p q := by
  unfold spriteHits
  rw [readV_drawn_of_ne hx, readV_drawn_of_ne hy]
  rfl

/-- A sprite has a set bit exactly if it has a target, wherever it is drawn. -/
theorem spriteHasSetBit_iff (x y : Nibble) : spriteHasSetBit s n ↔ ∃ p q, spriteHits s x y n p q := by
  constructor
  · rintro ⟨row, hrow, col, hcol, hbit⟩
    exact ⟨_, _, row, hrow, col, hcol, hbit, rfl, rfl⟩
  · rintro ⟨p, q, row, hrow, col, hcol, hbit, -⟩
    exact ⟨row, hrow, col, hcol, hbit⟩

/-- A target is inverted twice, every other pixel is kept twice. -/
theorem fb_drawn_drawn (hx : x ≠ regVF) (hy : y ≠ regVF) : ((s.drawn x y n).drawn x y n).fb = s.fb := by
  refine Display.ext_pixel fun p _ q _ => ?_
  change State.pixel _ p q = s.pixel p q
  by_cases h : spriteHits s x y n p q
  · rw [pixel_drawn_of_spriteHits ((spriteHits_drawn_iff hx hy).2 h), pixel_drawn_of_spriteHits h, Bool.not_not]
  · rw [pixel_drawn_of_not_spriteHits (mt (spriteHits_drawn_iff hx hy).1 h), pixel_drawn_of_not_spriteHits h]

/-- The second draw collides exactly on the targets that were off before the first (log 16). -/
theorem readV_regVF_drawn_drawn_eq_one_iff (hx : x ≠ regVF) (hy : y ≠ regVF) :
    ((s.drawn x y n).drawn x y n).readV regVF = 0x01#8 ↔
      ∃ p q, spriteHits s x y n p q ∧ s.pixel p q = false := by
  rw [readV_regVF_drawn_eq_one_iff]
  refine exists_congr fun p => exists_congr fun q => ?_
  rw [spriteHits_drawn_iff hx hy]
  refine and_congr_right fun h => ?_
  rw [pixel_drawn_of_spriteHits h, Bool.not_eq_true']

/-- Settles O55: a target of the second draw is on exactly if it was off before the first, and without a first collision
every target was off. -/
theorem drawingTwiceRestoresTheDisplay : Obligations.DrawingTwiceRestoresTheDisplay := by
  intro x y n s hx hy
  have hsecond := readV_regVF_drawn_drawn_eq_one_iff (s := s) (n := n) hx hy
  have hset : ((s.drawn x y n).drawn x y n).readV regVF = 0x01#8 → spriteHasSetBit s n := fun hone => by
    obtain ⟨p, q, hhit, -⟩ := hsecond.1 hone
    exact (spriteHasSetBit_iff x y).2 ⟨p, q, hhit⟩
  refine ⟨s.drawn x y n, (s.drawn x y n).drawn x y n, completesTo_drawn .., completesTo_drawn .., fb_drawn_drawn hx hy,
    fun _ _ => pixel_drawn_of_spriteHits, hsecond, hset, fun hzero => ⟨hset, fun hbit => ?_⟩⟩
  obtain ⟨p, q, hhit⟩ := (spriteHasSetBit_iff x y).1 hbit
  have hoff : s.pixel p q ≠ true := fun hon => readV_regVF_drawn_eq_zero_iff.1 hzero ⟨p, q, hhit, hon⟩
  exact hsecond.2 ⟨p, q, hhit, Bool.eq_false_of_not_eq_true hoff⟩

end Sys2Proof.Machine
end

section
/-! Proofs for the family of spec/46_input.md: the two skips on a key (R241, R242, R244) and the wait for a key
(R243). -/

namespace Sys2Proof.Machine

variable {s : State}

/-! ### The skips on a key (R241, R242) -/

/-- Where the host has fixed the inputs of the step, the sampled key vector is the head's (log 4). -/
theorem State.keys_of_inputs {ks : Word} {r : Byte} {rest : List Inputs} (h : s.inputs = ⟨ks, r⟩ :: rest) :
    s.keys = ks := by
  rw [State.keys, h]

/-- SKP skips where key Vx[3:0] is down. -/
theorem exec_skpVx (s : State) (x : Nibble) :
    exec (.skpVx x) s = (s.advancePc.skipIf (decide (keyDown s.keys (lowNibble (s.readV x)) = true))).done := by
  rw [Bool.decide_eq_true]
  rfl

/-- SKNP skips where key Vx[3:0] is up. -/
theorem exec_sknpVx (s : State) (x : Nibble) :
    exec (.sknpVx x) s = (s.advancePc.skipIf (decide (keyDown s.keys (lowNibble (s.readV x)) = false))).done := by
  rw [Bool.decide_eq_false]
  rfl

/-- Settles O28: both are skips, on opposite levels of the same key. -/
theorem keySkips : Obligations.KeySkips := fun x s =>
  ⟨Laws.RoundTrip.skpVx x rfl, Laws.RoundTrip.sknpVx x rfl, exists_skip_of_exec (exec_skpVx s x),
    exists_skip_of_exec (exec_sknpVx s x), fun _ _ _ => State.keys_of_inputs⟩

/-! ### The wait for a key (R243) -/

/-- The body's retreat undoes the advance: only the result is new (R131). -/
theorem State.needsInput_advancePc (s : State) : s.advancePc.needsInput = s.setResult .needsInput := by
  have hpc : s.advancePc.pc - 2#16 = s.pc := BitVec.add_sub_cancel s.pc 2#16
  rw [State.needsInput, hpc]
  rfl

/-- With no key down, LD Vx,K gives its result and changes nothing. -/
theorem exec_ldVxK_of_no_key (x : Nibble) (hkeys : s.keys = 0#16) :
    exec (.ldVxK x) s = .next (s.setResult .needsInput) := by
  obtain ⟨-, h⟩ | ⟨hne, -⟩ := exec_ldVxK s x
  · rw [h, State.needsInput_advancePc]
  · exact absurd hkeys hne

/-- With a key down, the one register write of LD Vx,K is the lowest such key. -/
theorem exec_ldVxK_of_key (x : Nibble) (hkeys : s.keys ≠ 0#16) :
    ∃ k, lowestKey s.keys = some k ∧ exec (.ldVxK x) s = (s.advancePc.writeV x (BitVec.ofNat 8 k)).done := by
  obtain ⟨hzero, -⟩ | ⟨-, hk⟩ := exec_ldVxK s x
  · exact absurd hzero hkeys
  · exact hk

/-- `b` is the number of a key that is down in `ks`, and no key of a lower number is. -/
def IsLowestKey (ks : Word) (b : Byte) : Prop :=
  ∃ k < 16, b.toNat = k ∧ ks.getLsbD k = true ∧ ∀ j < k, ks.getLsbD j = false

theorem isLowestKey_of_lowestKey {ks : Word} {k : Nat} (h : lowestKey ks = some k) :
    IsLowestKey ks (BitVec.ofNat 8 k) := by
  obtain ⟨hk, hdown, hlow⟩ := lowestKey_eq_some h
  exact ⟨k, hk, toNat_ofNat_byte (by omega), hdown, hlow⟩

/-- Settles O29: one register write, of the lowest key; with no key down the state is as before but for the result, and
the step only ticks the timers. -/
theorem waitForKeyTakesTheLowestKey : Obligations.WaitForKeyTakesTheLowestKey := by
  intro x s
  have hdec := Laws.RoundTrip.ldVxK x rfl
  refine ⟨hdec, fun hkeys => ?_, fun hkeys => ?_, fun hrun hword hkeys => ?_⟩
  · exact ⟨_, exec_ldVxK_of_no_key x hkeys, rfl, rfl, onlyPc_setResult_setPc s s.pc .needsInput⟩
  · obtain ⟨k, hk, h⟩ := exec_ldVxK_of_key x hkeys
    exact exists_prop_of_exec (IsLowestKey s.keys) (isLowestKey_of_lowestKey hk) h
  · obtain ⟨u, hstep, hdt, hst, htone, hv, hpc, hi, hstack, hmem, hdisplay, hlatch, hresult⟩ :=
      timerPhaseTicksEveryNonFatalStep s _ _ hrun (hword ▸ hdec) (exec_ldVxK_of_no_key x hkeys) hrun
    exact ⟨u, hstep, hpc, hresult, hdt, hst, htone, hv, hi, hstack, hmem, hdisplay, hlatch⟩

end Sys2Proof.Machine
end

section
/-! Proofs for the family of spec/60_exceptions.md: a running step halts under the three fatal conditions and under no
other (R255). -/

namespace Sys2Proof.Machine

variable {s t : State} {i : Instr} {c : Cause} {w : Word}

/-- The fatal condition of cause `c` holds of the state before the step (R255). -/
inductive FatalCondition (s : State) : Cause → Prop where
  | unknownOpcode (hill : IllegalWord s.fetchWord) : FatalCondition s .unknownOpcode
  | stackUnderflow (hword : s.fetchWord = 0x00EE#16) (hsp : s.sp.val = 0) : FatalCondition s .stackUnderflow
  | stackOverflow (hword : s.fetchWord.toNat / 4096 = 0x2) (hsp : s.sp.val = 16) : FatalCondition s .stackOverflow

/-! ### A fatal condition halts the machine -/

/-- RET on an empty stack raises. -/
theorem exec_ret_of_empty (hsp : s.sp.val = 0) : exec .ret s = .next (s.raiseFatal .stackUnderflow 0x00EE#16) :=
  ((exec_ret s).resolve_right fun h => h.1 hsp).2

/-- CALL on a full stack raises. -/
theorem exec_callNnn_of_full (nnn : Imm12) (hsp : s.sp.val = 16) :
    exec (.callNnn nnn) s = .next (s.raiseFatal .stackOverflow (wordNnn 0x2#4 nnn)) :=
  ((exec_callNnn s nnn).resolve_right fun h => h.1.ne hsp).2

/-- The words of family 2 are those of CALL. -/
theorem family_two_iff : w.toNat / 4096 = 0x2 ↔ ∃ nnn, encode (.callNnn nnn) = w := by
  rw [toNat_div_4096_eq_fieldOp]
  constructor
  · exact fun hop => ⟨fieldNnn w, wordNnn_of_fieldOp hop⟩
  · rintro ⟨nnn, rfl⟩
    exact congrArg BitVec.toNat (fieldOp_wordNnn 0x2#4 nnn)

/-- A running step whose instruction raises enters the fatal condition. -/
theorem fatalEntry_of_exec_raiseFatal (hrun : s.halt = false) (hstep : step s = .next t)
    (hdec : decodeWord s.fetchWord = .ok i) (h : exec i s = .next (s.raiseFatal c w)) : FatalEntry s t c w := by
  cases hstep.symm.trans (step_of_exec_raiseFatal hrun hdec h)
  exact fatalEntry_consumeInputs_raiseFatal s c w

/-- A running step under a fatal condition enters it, with the fetched word. -/
theorem fatalEntry_of_fatalCondition (hrun : s.halt = false) (hstep : step s = .next t) (hc : FatalCondition s c) :
    FatalEntry s t c s.fetchWord := by
  cases hc with
  | unknownOpcode hill =>
    obtain ⟨u, hu, hentry⟩ := illegalWordRaisesUnknownOpcode s hrun hill
    cases hstep.symm.trans hu
    exact hentry
  | stackUnderflow hword hsp =>
    rw [hword]
    exact fatalEntry_of_exec_raiseFatal hrun hstep (hword ▸ Laws.RoundTrip.ret rfl) (exec_ret_of_empty hsp)
  | stackOverflow hword hsp =>
    obtain ⟨nnn, hcall⟩ := family_two_iff.1 hword
    rw [← hcall]
    exact fatalEntry_of_exec_raiseFatal hrun hstep (hcall ▸ Laws.RoundTrip.callNnn nnn rfl) (exec_callNnn_of_full nnn hsp)

/-! ### Nothing else halts it -/

/-- A body that completes raises nothing: the results differ. -/
theorem done_ne_raiseFatal : t.done ≠ .next (s.raiseFatal c w) := by
  simp [State.done, State.setResult, State.raiseFatal]

/-- Nor does a body that finds no key. -/
theorem needsInput_ne_raiseFatal : t.needsInput ≠ s.raiseFatal c w := by
  simp [State.needsInput, State.setResult, State.raiseFatal]

/-- An instruction that raises does so under the fatal condition of its cause. -/
theorem fatalCondition_of_exec_raiseFatal (hdec : decodeWord s.fetchWord = .ok i)
    (h : exec i s = .next (s.raiseFatal c w)) : FatalCondition s c := by
  obtain ⟨hwf, henc⟩ := encode_of_decodeWord hdec
  cases i with
  | sysNnn nnn =>
    cases h
    exact .unknownOpcode (henc ▸ (illegalWord_encode_iff hwf).2 rfl)
  | ret =>
    obtain ⟨hsp, e⟩ | ⟨-, p, -, e⟩ := exec_ret s
    · cases e.symm.trans h
      exact .stackUnderflow henc.symm hsp
    · exact absurd (e.symm.trans h) done_ne_raiseFatal
  | callNnn nnn =>
    obtain ⟨hsp, e⟩ | ⟨-, k, p, -, -, e⟩ := exec_callNnn s nnn
    · cases e.symm.trans h
      exact .stackOverflow (family_two_iff.2 ⟨nnn, henc⟩) hsp
    · exact absurd (e.symm.trans h) done_ne_raiseFatal
  | ldVxK x =>
    obtain ⟨-, e⟩ | ⟨-, k, -, e⟩ := exec_ldVxK s x
    · exact absurd (Host.Outcome.next.inj (e.symm.trans h)) needsInput_ne_raiseFatal
    · exact absurd (e.symm.trans h) done_ne_raiseFatal
  | _ => exact absurd h done_ne_raiseFatal

/-- A running step that ends halted was under the fatal condition that the latch names. -/
theorem fatalCondition_of_halt (hrun : s.halt = false) (hstep : step s = .next t) (ht : t.halt = true) :
    FatalCondition s t.hcause := by
  obtain ⟨hhalt, -⟩ | ⟨-, ⟨e, hdec⟩, rfl⟩ | ⟨-, i, u, hdec, hexec, rfl⟩ := step_cases s hstep
  · simp [hrun] at hhalt
  · exact .unknownOpcode (illegalWord_of_decodeWord hdec).2
  · rw [halt_consumeInputs_timerPhase] at ht
    obtain ⟨c, rfl⟩ | ⟨hkept, -⟩ := raiseFatal_or_sameLatch_of_exec hexec
    · rw [State.timerPhase_of_halted _ ht]
      exact fatalCondition_of_exec_raiseFatal hdec hexec
    · simp [hkept, hrun] at ht

/-- A running step halts exactly under a fatal condition. -/
theorem halt_iff_exists_fatalCondition (hrun : s.halt = false) (hstep : step s = .next t) :
    t.halt = true ↔ ∃ c, FatalCondition s c := by
  refine ⟨fun ht => ⟨t.hcause, fatalCondition_of_halt hrun hstep ht⟩, fun ⟨c, hc⟩ => ?_⟩
  obtain ⟨-, hhalt, -⟩ := fatalEntry_of_fatalCondition hrun hstep hc
  exact hhalt

/-- Under a fatal condition a running step latches its cause and the fetched word. -/
theorem latch_of_fatalCondition (hrun : s.halt = false) (hstep : step s = .next t) (hc : FatalCondition s c) :
    t.hcause = c ∧ t.hinfo = s.fetchWord := by
  obtain ⟨-, -, hcause, hinfo, -⟩ := fatalEntry_of_fatalCondition hrun hstep hc
  exact ⟨hcause, hinfo⟩

/-- The fatal conditions written out, in the order of their causes. -/
theorem exists_fatalCondition_iff : (∃ c, FatalCondition s c) ↔ IllegalWord s.fetchWord ∨
    (s.fetchWord = 0x00EE#16 ∧ s.sp.val = 0) ∨ (s.fetchWord.toNat / 4096 = 0x2 ∧ s.sp.val = 16) := by
  constructor
  · rintro ⟨_, hill | ⟨hword, hsp⟩ | ⟨hword, hsp⟩⟩
    · exact .inl hill
    · exact .inr (.inl ⟨hword, hsp⟩)
    · exact .inr (.inr ⟨hword, hsp⟩)
  · rintro (hill | ⟨hword, hsp⟩ | ⟨hword, hsp⟩)
    · exact ⟨_, .unknownOpcode hill⟩
    · exact ⟨_, .stackUnderflow hword hsp⟩
    · exact ⟨_, .stackOverflow hword hsp⟩

/-- Settles O39: the step halts exactly under a fatal condition, and each of the three latches its own cause. -/
theorem machineHaltsExactlyOnTheThreeConditions : Obligations.MachineHaltsExactlyOnTheThreeConditions :=
  fun _ _ hrun hstep =>
  ⟨(halt_iff_exists_fatalCondition hrun hstep).trans exists_fatalCondition_iff,
    fun hill => latch_of_fatalCondition hrun hstep (.unknownOpcode hill),
    fun hword hsp => hword ▸ latch_of_fatalCondition hrun hstep (.stackUnderflow hword hsp),
    fun hword hsp => latch_of_fatalCondition hrun hstep (.stackOverflow hword hsp)⟩

end Sys2Proof.Machine
end

section
/-! Proofs for the family of spec/70_reset_and_hazards.md, and for the machine as a whole: the invariant that every step
and every host action keeps (spec/60_exceptions.md R255, R259), that every state has a successor, the canonical form of
memory as an identity of data, reset (R290 to R293), and the host's writes to memory (R296). -/

namespace Sys2Proof.Machine

variable {s t : State} {i : Instr} {c : Cause}

/-! ### Canonical memory is kept -/

theorem mem_consumeInputs_timerPhase : s.timerPhase.consumeInputs.mem = s.mem := by
  cases hh : s.halt with
  | true => rw [State.timerPhase_of_halted s hh]; rfl
  | false => rw [State.timerPhase_of_running s hh]; rfl

theorem mem_wf_of_writeBytes_done {a : Nat} {l : List Byte} (h : (s.advancePc.writeBytes a l).done = .next t)
    (hwf : s.mem.wf = true) : t.mem.wf = true := by
  cases h
  exact State.writeBytes_mem_wf (s := s.advancePc) a l hwf

/-- Two shapes of `Effect` change memory, and both are stores of bytes. -/
theorem mem_wf_of_exec (h : exec i s = .next t) (hwf : s.mem.wf = true) : t.mem.wf = true := by
  cases effect_of_exec h with
  | storeBcd | storeBlock => exact mem_wf_of_writeBytes_done h hwf
  | _ => exact hwf

theorem mem_wf_of_step (h : step s = .next t) (hwf : s.mem.wf = true) : t.mem.wf = true := by
  obtain ⟨-, rfl⟩ | ⟨-, -, rfl⟩ | ⟨-, i, u, -, hexec, rfl⟩ := step_cases s h
  · exact hwf
  · exact hwf
  · rw [mem_consumeInputs_timerPhase]
    exact mem_wf_of_exec hexec hwf

/-! ### The latch tells the truth -/

theorem latchTruthful_of_running (hrun : s.halt = false) : LatchTruthful s := by
  intro hhalt
  simp [hrun] at hhalt

/-- A latch that holds the word at PC, with a fatal condition of the latched cause, tells the truth. -/
theorem latchTruthful_of_fatalCondition (hinfo : s.fetchWord = s.hinfo) (hc : FatalCondition s s.hcause) :
    LatchTruthful s := by
  intro _
  refine ⟨hinfo, ?_⟩
  rw [← hinfo]
  generalize s.hcause = c at hc ⊢
  cases hc with
  | unknownOpcode hill => exact hill
  | stackUnderflow hword hsp => exact ⟨hword, hsp⟩
  | stackOverflow hword hsp => exact ⟨hword, hsp⟩

theorem fetchWord_of_sameArchState (h : SameArchState s t) : t.fetchWord = s.fetchWord := by
  obtain ⟨-, hpc, -, -, -, hmem, -⟩ := h
  rw [State.fetchWord, hpc, hmem, hmem, State.fetchWord]

/-- A fatal condition is about the fetched word and SP, which the entry into it keeps. -/
theorem fatalCondition_of_sameArchState (h : SameArchState s t) (hc : FatalCondition s c) : FatalCondition t c := by
  have hfetch := fetchWord_of_sameArchState h
  obtain ⟨-, -, -, ⟨hsp', -⟩, -⟩ := h
  cases hc with
  | unknownOpcode hill => exact .unknownOpcode (by rwa [hfetch])
  | stackUnderflow hword hsp => exact .stackUnderflow (by rwa [hfetch]) (by rwa [hsp'])
  | stackOverflow hword hsp => exact .stackOverflow (by rwa [hfetch]) (by rwa [hsp'])

/-- A running step that ends halted was under the fatal condition it latches, and is under it still. -/
theorem latchTruthful_of_running_step (hrun : s.halt = false) (h : step s = .next t) : LatchTruthful t := by
  cases ht : t.halt with
  | false => exact latchTruthful_of_running ht
  | true =>
    have hc := fatalCondition_of_halt hrun h ht
    obtain ⟨harch, -, -, hinfo, -⟩ := fatalEntry_of_fatalCondition hrun h hc
    exact latchTruthful_of_fatalCondition ((fetchWord_of_sameArchState harch).trans hinfo.symm)
      (fatalCondition_of_sameArchState harch hc)

theorem latchTruthful_of_step (h : step s = .next t) (hs : LatchTruthful s) : LatchTruthful t := by
  cases hh : s.halt with
  | false => exact latchTruthful_of_running_step hh h
  | true =>
    cases (step_of_halted hh).symm.trans h
    exact hs

/-! ### The invariant: at reset, over every step, over every host action -/

/-- Settles O41: the two halves of the invariant are kept one by one. -/
theorem everyStepKeepsTheMachineInvariant : Obligations.EveryStepKeepsTheMachineInvariant :=
  fun _ _ ⟨hwf, hlatch⟩ h => ⟨mem_wf_of_step h hwf, latchTruthful_of_step h hlatch⟩

/-- Settles O42: reset lists no byte and leaves the machine running. -/
theorem resetStateHasTheInvariant : Obligations.ResetStateHasTheInvariant :=
  ⟨rfl, latchTruthful_of_running rfl⟩

/-- Settles O43: every host action keeps memory; reset leaves the machine running, the other two keep all the invariant
speaks of. -/
theorem hostActionsKeepTheMachineInvariant : Obligations.HostActionsKeepTheMachineInvariant := by
  rintro s a ⟨hwf, hlatch⟩
  cases a with
  | present => exact ⟨hwf, hlatch⟩
  | reset => exact ⟨hwf, latchTruthful_of_running rfl⟩
  | drive => exact ⟨hwf, hlatch⟩

/-! ### Every state has a successor (spec/93_implementation_defined.md Part 1) -/

theorem exists_next_of_exec (i : Instr) (s : State) : ∃ t, exec i s = .next t := by
  cases i with
  | ret => obtain ⟨-, e⟩ | ⟨-, p, -, e⟩ := exec_ret s <;> exact ⟨_, e⟩
  | callNnn nnn => obtain ⟨-, e⟩ | ⟨-, k, p, -, -, e⟩ := exec_callNnn s nnn <;> exact ⟨_, e⟩
  | _ => exact ⟨_, rfl⟩

/-- A halted state, an undecodable word and a decoded instruction each have their successor. -/
theorem exists_next_of_step (s : State) : ∃ t, step s = .next t := by
  cases hh : s.halt with
  | true => exact ⟨_, step_of_halted hh⟩
  | false =>
    cases hdec : decodeWord s.fetchWord with
    | error e => exact ⟨_, step_of_decodeWord_error hh hdec⟩
    | ok i =>
      obtain ⟨u, hexec⟩ := exists_next_of_exec i s
      exact ⟨_, step_of_exec hh hdec hexec⟩

/-- Settles O40: the instruction and the step each answer a next state. -/
theorem everyStateHasASuccessor : Obligations.EveryStateHasASuccessor :=
  ⟨exists_next_of_exec, exists_next_of_step⟩

/-! ### The canonical form of memory is an identity of data (spec/20_memory.md §1) -/

theorem Memory.wfFrom_cons_iff {lo a : Nat} {v : Byte} {m : Memory} :
    Memory.wfFrom lo ((a, v) :: m) = true ↔ (lo ≤ a ∧ a < 4096) ∧ m.wfFrom (a + 1) = true := by
  simp [Memory.wfFrom]

@[simp] theorem Memory.lookup_cons_self (a : Nat) (v : Byte) (m : Memory) : Memory.lookup ((a, v) :: m) a = some v :=
  if_pos rfl

theorem Memory.lookup_cons_of_ne {a b : Nat} (h : a ≠ b) (v : Byte) (m : Memory) :
    Memory.lookup ((a, v) :: m) b = m.lookup b :=
  if_neg h

/-- Nothing is listed below the least address a memory may list. -/
theorem Memory.lookup_eq_none_of_lt {lo b : Nat} {m : Memory} (hm : m.wfFrom lo = true) (hb : b < lo) :
    m.lookup b = none := by
  induction m generalizing lo with
  | nil => rfl
  | cons e m ih =>
    obtain ⟨⟨hlo, -⟩, htail⟩ := Memory.wfFrom_cons_iff.1 hm
    rw [Memory.lookup_cons_of_ne (by omega)]
    exact ih htail (by omega)

/-- A canonical memory that agrees at `b` with one that lists `b` does not begin above `b`. -/
theorem Memory.not_lt_of_lookup_eq {lo a b : Nat} {v w : Byte} {m m' : Memory}
    (hm : Memory.wfFrom lo ((a, v) :: m) = true)
    (h : Memory.lookup ((a, v) :: m) b = Memory.lookup ((b, w) :: m') b) : ¬ b < a := by
  intro hlt
  obtain ⟨-, htail⟩ := Memory.wfFrom_cons_iff.1 hm
  rw [Memory.lookup_cons_of_ne hlt.ne', Memory.lookup_eq_none_of_lt htail (by omega), Memory.lookup_cons_self] at h
  cases h

/-- Canonical memories are told apart by what they list: the heads agree, as each is the least listed address, and so do
the tails, which list nothing at the head's address. -/
theorem Memory.ext_of_lookup {lo : Nat} {m m' : Memory} (hm : m.wfFrom lo = true) (hm' : m'.wfFrom lo = true)
    (h : ∀ a < 4096, m.lookup a = m'.lookup a) : m = m' := by
  induction m generalizing lo m' with
  | nil =>
    cases m' with
    | nil => rfl
    | cons e' m' =>
      obtain ⟨⟨-, hb⟩, -⟩ := Memory.wfFrom_cons_iff.1 hm'
      have hhead := h e'.1 hb
      rw [Memory.lookup_cons_self] at hhead
      cases hhead
  | cons e m ih =>
    obtain ⟨a, v⟩ := e
    obtain ⟨⟨-, ha⟩, htail⟩ := Memory.wfFrom_cons_iff.1 hm
    cases m' with
    | nil =>
      have hhead := h a ha
      rw [Memory.lookup_cons_self] at hhead
      cases hhead
    | cons e' m' =>
      obtain ⟨b, w⟩ := e'
      obtain ⟨⟨-, hb⟩, htail'⟩ := Memory.wfFrom_cons_iff.1 hm'
      have hba := Memory.not_lt_of_lookup_eq hm (h b hb)
      have hab := Memory.not_lt_of_lookup_eq hm' (h a ha).symm
      obtain rfl : a = b := by omega
      have hvalue := h a ha
      rw [Memory.lookup_cons_self, Memory.lookup_cons_self] at hvalue
      cases hvalue
      refine congrArg _ (ih htail htail' fun j hj => ?_)
      by_cases hja : a = j
      · rw [Memory.lookup_eq_none_of_lt htail (by omega), Memory.lookup_eq_none_of_lt htail' (by omega)]
      · rw [← Memory.lookup_cons_of_ne hja v m, ← Memory.lookup_cons_of_ne hja v m', h j hj]

/-- Settles O46: `Memory.ext_of_lookup` for lists that may begin at address 0. -/
theorem equalMemoriesAreEqualData : Obligations.EqualMemoriesAreEqualData :=
  fun _ _ hm hm' h => Memory.ext_of_lookup hm hm' h

/-! ### Reset (R290 to R293) -/

@[simp] theorem readV_reset (r : Nibble) : State.reset.readV r = 0x00#8 :=
  Vector.getElem_replicate r.isLt

@[simp] theorem readV_applyReset (s : State) (r : Nibble) : s.applyReset.readV r = 0x00#8 :=
  readV_reset r

@[simp] theorem pixel_reset (x y : Nat) : State.reset.pixel x y = false :=
  Display.pixel_blank x y

@[simp] theorem pixel_applyReset (s : State) (x y : Nat) : s.applyReset.pixel x y = false :=
  pixel_reset x y

/-- Settles O31: registers and pixels are replicated zeros, every other field is written out in `State.reset`. -/
theorem resetLeavesTheListedValues : Obligations.ResetLeavesTheListedValues :=
  ⟨⟨readV_reset, rfl, rfl, rfl, rfl, rfl, fun x _ y _ => pixel_reset x y, rfl, rfl, rfl, rfl⟩, fun s =>
    ⟨⟨readV_applyReset s, rfl, rfl, rfl, rfl, rfl, fun x _ y _ => pixel_applyReset s x y, rfl, rfl, rfl, rfl⟩, rfl⟩⟩

/-- With reset requested the answer is the reset state, whether or not a step is requested too. -/
theorem request_reset (s : State) (stepToo : Bool) : s.request ⟨true, stepToo⟩ = .next s.applyReset := rfl

theorem request_step (s : State) : s.request ⟨false, true⟩ = step s := rfl

theorem request_neither (s : State) : s.request ⟨false, false⟩ = .next s := rfl

/-- Settles O60: by the three kinds of request; the reset state is that of O31. -/
theorem resetWinsOverASimultaneousStep : Obligations.ResetWinsOverASimultaneousStep := by
  refine fun s => ⟨fun stepToo => ⟨s.applyReset, request_reset s stepToo, ?_⟩, request_step s, request_neither s⟩
  obtain ⟨-, hlisted⟩ := resetLeavesTheListedValues
  obtain ⟨⟨hv, hpc, hi, hsp, hdt, hst, hpixel, hdirty, hhalt, -⟩, hmem⟩ := hlisted s
  exact ⟨hpc, hv, hi, hsp, hdt, hst, hpixel, hdirty, hhalt, hmem, rfl, rfl⟩

/-! ### The word placed where the next step fetches it -/

theorem toNat_tableWord {w : Nat} (hw : w < 65536) : (tableWord 16 w).toNat = w := by
  rw [tableWord, BitVec.toNat_ofNat]
  omega

/-- The table decoder reads the word that the step's decoder reads. -/
theorem decodeWord_of_decodeTableWord {nbits w : Nat} (h : decodeTableWord nbits w = some i) :
    decodeWord (tableWord nbits w) = .ok i := by
  cases hdec : decodeWord (tableWord nbits w) <;> simp_all [decodeTableWord, decode]

/-- A byte after a word was placed: the two bytes at PC and PC + 1 are the word's, the others are kept. -/
theorem readByte_withFetchWord (s : State) (nbits w j : Nat) : (s.withFetchWord nbits w).readByte j =
    if j % 4096 = (s.pc.toNat + 1) % 4096 then lowByte (tableWord nbits w)
    else if j % 4096 = s.pc.toNat % 4096 then highByte (tableWord nbits w) else s.readByte j :=
  (State.readByte_writeByte _ _ j _).trans (congrArg _ (State.readByte_writeByte s s.pc.toNat j _))

theorem fetchWord_withFetchWord (s : State) (nbits w : Nat) :
    (s.withFetchWord nbits w).fetchWord = tableWord nbits w := by
  have hpc : (s.withFetchWord nbits w).pc = s.pc := rfl
  have hne : s.pc.toNat % 4096 ≠ (s.pc.toNat + 1) % 4096 := by omega
  rw [State.fetchWord, hpc, readByte_withFetchWord, readByte_withFetchWord, if_neg hne, if_pos rfl, if_pos rfl,
    wordOfBytes_highByte_lowByte]

theorem readByte_withFetchWord_of_ne {a : Nat} (nbits w : Nat) (ha : a < 4096) (hhigh : a ≠ s.pc.toNat % 4096)
    (hlow : a ≠ (s.pc.toNat + 1) % 4096) : (s.withFetchWord nbits w).readByte a = s.readByte a := by
  rw [readByte_withFetchWord, Nat.mod_eq_of_lt ha, if_neg hlow, if_neg hhigh]

/-- A running step of a word that decodes is the instruction and the end of the step, whatever it answers. -/
theorem step_of_decodeWord_ok (hrun : s.halt = false) (hdec : decodeWord s.fetchWord = .ok i) :
    step s = finishStep (exec i s) := by
  simp [step, hrun, hdec]

/-- Settles O58: the two bytes fetched are the word's own, so the step decodes what the table decoder does. -/
theorem placedWordIsWhatTheStepRuns : Obligations.PlacedWordIsWhatTheStepRuns := by
  intro s w hw
  have hfetch := fetchWord_withFetchWord s 16 w
  refine ⟨hfetch ▸ toNat_tableWord hw, rfl, fun a ha => readByte_withFetchWord_of_ne 16 w ha, fun _ => rfl, rfl, rfl,
    ⟨rfl, rfl⟩, ⟨rfl, rfl⟩, ⟨rfl, rfl⟩, rfl, rfl, ⟨rfl, rfl, rfl⟩, rfl, fun i hi => ?_⟩
  exact step_of_decodeWord_ok rfl (hfetch ▸ decodeWord_of_decodeTableWord hi)

/-! ### The program loaded before launch (R296) -/

@[simp] theorem State.writeBytes_pc (s : State) (a : Nat) (l : List Byte) : (s.writeBytes a l).pc = s.pc := by
  rw [State.writeBytes_eq]

@[simp] theorem State.writeBytes_result (s : State) (a : Nat) (l : List Byte) :
    (s.writeBytes a l).result = s.result := by
  rw [State.writeBytes_eq]

/-- A list of bytes stored keeps all but memory, PC included (`State.writeBytes_pc`). -/
theorem onlyMemAndPc_writeBytes (s : State) (a : Nat) (l : List Byte) : OnlyMemAndPc s (s.writeBytes a l) := by
  rw [State.writeBytes_eq]
  exact ⟨fun _ => rfl, rfl, ⟨rfl, rfl⟩, ⟨rfl, rfl⟩, ⟨rfl, rfl⟩, ⟨rfl, rfl, rfl⟩, rfl, rfl, rfl⟩

/-- A ROM that ends inside the address space leaves every byte outside its own addresses. -/
theorem readByte_loadProgram_of_outside {rom : List Byte} (hrom : rom.length ≤ 3584) {a : Nat} (ha : a < 4096)
    (hout : a < 0x200 ∨ 0x200 + rom.length ≤ a) : (s.loadProgram rom).readByte a = s.readByte a :=
  (State.readByte_writeBytes s 0x200 a rom (by omega)).2 fun k hk => by omega

/-- Settles O59: the load is one store of the ROM's bytes at 0x200, which does not wrap. -/
theorem loadedProgramStandsAt0x200 : Obligations.LoadedProgramStandsAt0x200 := by
  intro s rom hrom
  exact ⟨fun j hj => State.readByte_writeBytes_hit s 0x200 j rom (by omega) hj,
    fun a ha => readByte_loadProgram_of_outside hrom ha, State.writeBytes_pc s 0x200 rom,
    State.writeBytes_result s 0x200 rom, onlyMemAndPc_writeBytes s 0x200 rom⟩

end Sys2Proof.Machine
end
